-- ==== Sys2Proof/Word.lean ====
section
/-! DEFINITION. The word types of the block: the register word, the raw sample, the register offset and the
bus-request header (00_scope.md R6, R10; 30_encoding.md R81). -/

namespace Sys2Proof

/-- A register word, REG_BITS = 32 bits (00_scope.md R6, 10_state.md R23). -/
abbrev Word := BitVec 32

/-- One byte of the little-endian view of a register word (20_memory.md R63). -/
abbrev Byte := BitVec 8

/-- One raw profile sample, SAMPLE_BITS = 16 bits, unsigned (00_scope.md R6, 10_state.md R40). -/
abbrev Sample := BitVec 16

/-- A byte offset from BASE, the ADDR field of a request header (30_encoding.md R81). -/
abbrev Offset := BitVec 12

/-- The 15-bit header of a host bus request, W, SIZE and ADDR from high to low (30_encoding.md R81). -/
abbrev Header := BitVec 15

end Sys2Proof
end

