-- ==== Sys2Proof/Config.lean ====
section
/-! DEFINITION. What the spec leaves to the platform or leaves free. Nothing here has a body: no proof can see a
value, so a claim about the model holds for every choice. The parameters the spec gives values to are in
Machine/Params.lean. -/

namespace Sys2Proof

/-- The page number of BASE. BASE is OPEN and aligned to 4 KiB (20_memory.md R60), so it is 4096 times this number
(93_implementation_defined.md I14; DESIGN CHOICE, assumption 9). -/
opaque Config.basePage : Nat

/-- FREE VALUE. The arbitrary content of SAMPLE[j] after a reset, "drawn once at reset and stable until written"
(70_reset_and_hazards.md R228, 93_implementation_defined.md I2). The first argument counts the resets of a run, so
that each reset draws anew; the second is j (DESIGN CHOICE, assumption 4). -/
opaque Config.sampleAtReset : Nat → Nat → Sample

/-- FREE VALUE. CAL_LATENCY, "left OPEN", "need not be the same from run to run" (70_reset_and_hazards.md R229,
93_implementation_defined.md I6): how many host events can at the most come between the start of a run and its
completion step. It is finite, because the completion step is weakly fair (R230). The argument counts the draws of a
history, one for each run or reset (DESIGN CHOICE, assumption 22). -/
opaque Config.latency : Nat → Nat

/-- BASE, the platform address of the 4 KiB register window (20_memory.md R60). -/
def Config.base : Nat := 4096 * Config.basePage

end Sys2Proof
end

