-- ==== Sys2Proof/Machine/Params.lean ====
section
/-! DEFINITION. The implementation parameters of 00_scope.md R6, under the spec's names (93_implementation_defined.md
I13 asks for named constants), and the fixed words of the register map (10_state.md R22). -/

namespace Sys2Proof.Params

/-- PROFILE_LEN, the samples of the raw profile (R6). -/
@[simp] abbrev profileLen : Nat := 224
/-- MIN_RAW_LEN, the least LEN for which the algorithm runs (R6, R120). -/
@[simp] abbrev minRawLen : Nat := 171
/-- WIN_OFF, the raw index of the window's first sample (R6). -/
@[simp] abbrev winOff : Nat := 40
/-- WIN_LEN, the samples of the window (R6). -/
@[simp] abbrev winLen : Nat := 131
/-- SMOOTH_W, the width of the moving average (R6, R122). -/
@[simp] abbrev smoothW : Nat := 5
/-- BASE_THR, the base threshold DET_THR is derived from (R6, R7). -/
@[simp] abbrev baseThr : Nat := 250
/-- DET_THR, the detection threshold (R6, R131). -/
@[simp] abbrev detThr : Nat := 225
/-- BND_THR, the threshold a sample must exceed to be taken into a bound (R6, R132). -/
@[simp] abbrev bndThr : Nat := 90
/-- PROM_WIN, the samples of one valley window (R6, R134). -/
@[simp] abbrev promWin : Nat := 3
/-- MAX_PEAKS, the most candidates kept (R6, R136). -/
@[simp] abbrev maxPeaks : Nat := 32
/-- MERGE_DIST, the largest distance that merges (R6, R142). -/
@[simp] abbrev mergeDist : Nat := 3
/-- MERGE_RATIO's numerator: `min * 10 > max * 7` (R6, R142). -/
@[simp] abbrev mergeRatioNum : Nat := 7
/-- MERGE_RATIO's denominator (R6, R142). -/
@[simp] abbrev mergeRatioDen : Nat := 10
/-- MIN_PROM, the least prominence of an emitted cluster (R6, R144). -/
@[simp] abbrev minProm : Nat := 60
/-- LIQ_FRAC's numerator, 40 of 100 (R6, R153). -/
@[simp] abbrev liqFracNum : Nat := 40
/-- LIQ_FRAC's denominator (R6, R153). -/
@[simp] abbrev liqFracDen : Nat := 100
/-- NEAR_MARGIN (R6, R160). -/
@[simp] abbrev nearMargin : Nat := 3
/-- LIQ_NEAR_MARGIN (R6, R160). -/
@[simp] abbrev liqNearMargin : Nat := 3
/-- The numerator of the near threshold's `ca * 3 / 20` (R161). -/
@[simp] abbrev nearScaleNum : Nat := 3
/-- The denominator of the near threshold's `ca * 3 / 20` (R161). -/
@[simp] abbrev nearScaleDen : Nat := 20
/-- FAR_DEFAULT_LOCAL, a window coordinate (R6, R162; 90_conflicts.md C4). -/
@[simp] abbrev farDefaultLocal : Nat := 152
/-- QUIET_THR (R6, R162). -/
@[simp] abbrev quietThr : Nat := 250
/-- QUIET_RUN, the consecutive quiet samples the far search looks for (R6, R162). -/
@[simp] abbrev quietRun : Nat := 3
/-- FAR_CAP_MARGIN (R6, R162). -/
@[simp] abbrev farCapMargin : Nat := 2
/-- FAR_THR_DEFAULT (R6, R163). -/
@[simp] abbrev farThrDefault : Nat := 250
/-- The factor of the far threshold's `(a * 2 + 5) / 10` (R163). -/
@[simp] abbrev farScaleNum : Nat := 2
/-- The rounding term of the far threshold's `(a * 2 + 5) / 10` (R163). -/
@[simp] abbrev farScaleRound : Nat := 5
/-- The denominator of the far threshold's `(a * 2 + 5) / 10` (R163). -/
@[simp] abbrev farScaleDen : Nat := 10
/-- The sentinel's edgePosition and liquidPosition (R6, R14). -/
@[simp] abbrev sentinelPosition : Int := -1
/-- The sentinel's thresholdNear (R6, R14). -/
@[simp] abbrev sentinelThrNear : Int := 400
/-- The sentinel's boundaryNear, raw (R6, R14). -/
@[simp] abbrev sentinelBndNear : Int := 60
/-- The sentinel's thresholdFar (R6, R14). -/
@[simp] abbrev sentinelThrFar : Int := 250
/-- The sentinel's boundaryFar, raw (R6, R14). -/
@[simp] abbrev sentinelBndFar : Int := 152
/-- The ID word, "EPDC" (10_state.md R22). -/
@[simp] abbrev idWord : Word := 0x45504443#32
/-- The VERSION word (10_state.md R22). -/
@[simp] abbrev versionWord : Word := 0x00000007#32

end Sys2Proof.Params
end

