-- ==== Sys2Proof/Machine/Records.lean ====
section
/-! DEFINITION. The records the engine computes with: the peak roles, EchoPeak and ThresholdResult of 00_scope.md R13
and R14, and the no-container sentinel. Quantities the rules keep non-negative are Nat, the others Int: all exact,
none wraps (00_scope.md R8). -/

namespace Sys2Proof.Machine

/-- The role of a peak (00_scope.md R13, 10_state.md R35). -/
inductive Role where
  | unknown
  | edge
  | liquid
  | interference
  deriving DecidableEq, Repr

/-- The 2-bit register code of a role (10_state.md R35). -/
def Role.code : Role → BitVec 2
  | .unknown      => 0#2
  | .edge         => 1#2
  | .liquid       => 2#2
  | .interference => 3#2

/-- One peak. Inside the algorithm `position`, `leftBound` and `rightBound` are local (window) coordinates; in a
ThresholdResult they are raw (00_scope.md R12, R13). -/
structure EchoPeak where
  position   : Nat
  amplitude  : Nat
  leftBound  : Nat
  rightBound : Nat
  prominence : Nat
  role       : Role
  deriving DecidableEq, Repr

/-- What `P[k]` answers beyond the end of a list; no rule reads it (indices stay below `len(P)`). -/
def EchoPeak.blank : EchoPeak := ⟨0, 0, 0, 0, 0, .unknown⟩

/-- `P[k]` of the rules. -/
def peakAt (P : List EchoPeak) (k : Nat) : EchoPeak := P.getD k EchoPeak.blank

/-- The result of one calibration, in raw coordinates (00_scope.md R14). -/
structure ThresholdResult where
  edgePosition   : Int
  liquidPosition : Int
  thresholdNear  : Int
  boundaryNear   : Int
  thresholdFar   : Int
  boundaryFar    : Int
  edgeExtended   : Bool
  peaks          : List EchoPeak
  deriving DecidableEq, Repr

/-- SENTINEL, the no-container result (00_scope.md R14). -/
def sentinel : ThresholdResult :=
  { edgePosition   := Params.sentinelPosition
    liquidPosition := Params.sentinelPosition
    thresholdNear  := Params.sentinelThrNear
    boundaryNear   := Params.sentinelBndNear
    thresholdFar   := Params.sentinelThrFar
    boundaryFar    := Params.sentinelBndFar
    edgeExtended   := false
    peaks          := [] }

end Sys2Proof.Machine
end

