-- ==== Sys2Proof/Machine/Results.lean ====
section
/-! DEFINITION. The result registers and the PEAK table as the block stores them (10_state.md R32 to R39), and
WriteResult, which fills them from a ThresholdResult (40_commands.md R112). -/

namespace Sys2Proof.Machine

/-- One entry of the PEAK table, each field at the width its word holds (10_state.md R37). The two reserved words of an
entry hold nothing. -/
structure PeakEntry where
  /-- +0x00 POS, raw, two's complement. -/
  pos   : Word
  /-- +0x04 AMP, bits[15:0]. -/
  amp   : BitVec 16
  /-- +0x08 LEFT, raw. -/
  left  : Word
  /-- +0x0C RIGHT, raw. -/
  right : Word
  /-- +0x10 PROM, bits[15:0]. -/
  prom  : BitVec 16
  /-- +0x14 ROLE, bits[1:0] through `Role.code`. -/
  role  : Role
  deriving DecidableEq, Repr

/-- An entry every word of which reads 0 (10_state.md R39). -/
def PeakEntry.zero : PeakEntry := ⟨0#32, 0#16, 0#32, 0#32, 0#16, .unknown⟩

/-- The result registers 0x020 to 0x03C and the PEAK table (10_state.md R32 to R37). -/
structure ResultRegs where
  /-- RES_EDGE_POS (R32). -/
  edgePos     : Word
  /-- RES_LIQ_POS (R32). -/
  liqPos      : Word
  /-- RES_THR_NEAR (R33). -/
  thrNear     : Word
  /-- RES_BND_NEAR (R33). -/
  bndNear     : Word
  /-- RES_THR_FAR (R33). -/
  thrFar      : Word
  /-- RES_BND_FAR (R33). -/
  bndFar      : Word
  /-- RES_FLAGS bit 0, EDGE_EXT (R34). -/
  edgeExt     : Bool
  /-- RES_FLAGS bit 1, NO_CONTAINER (R34). -/
  noContainer : Bool
  /-- RES_PEAK_COUNT bits[5:0] (R36). -/
  peakCount   : BitVec 6
  /-- PEAK[0..31] (R37). -/
  peaks       : Vector PeakEntry 32
  deriving DecidableEq, Repr

/-- The words of one reported peak (10_state.md R37): positions in two's complement, AMP and PROM 16 bits wide
(30_encoding.md R87). -/
def peakEntry (p : EchoPeak) : PeakEntry :=
  { pos   := BitVec.ofNat 32 p.position
    amp   := BitVec.ofNat 16 p.amplitude
    left  := BitVec.ofNat 32 p.leftBound
    right := BitVec.ofNat 32 p.rightBound
    prom  := BitVec.ofNat 16 p.prominence
    role  := p.role }

/-- Entry k of the table for a result's peaks: its k-th peak, or all words 0 (40_commands.md R112, 10_state.md R39). -/
def tableEntry (peaks : List EchoPeak) (k : Nat) : PeakEntry :=
  match peaks[k]? with
  | some p => peakEntry p
  | none   => PeakEntry.zero

/-- WriteResult: the register values of a result (40_commands.md R112). Signed values are two's complement, `v mod 2^32`
(30_encoding.md R87). -/
def resultRegs (R : ThresholdResult) : ResultRegs :=
  { edgePos     := BitVec.ofInt 32 R.edgePosition
    liqPos      := BitVec.ofInt 32 R.liquidPosition
    thrNear     := BitVec.ofInt 32 R.thresholdNear
    bndNear     := BitVec.ofInt 32 R.boundaryNear
    thrFar      := BitVec.ofInt 32 R.thresholdFar
    bndFar      := BitVec.ofInt 32 R.boundaryFar
    edgeExt     := R.edgeExtended
    noContainer := decide (R.edgePosition < 0 ∨ R.liquidPosition < 0)
    peakCount   := BitVec.ofNat 6 R.peaks.length
    peaks       := Vector.ofFn fun k => tableEntry R.peaks k.val }

end Sys2Proof.Machine
end

