-- ==== Sys2Proof/Syntax.lean ====
section
/-! DEFINITION. What the host can ask of the block: one constructor per row of spec/opcode_table.json, and the two
request formats as they arrive on the bus (30_encoding.md R80 to R84). -/

namespace Sys2Proof

/-- A host bus request as it reaches the block: the header and, alongside it, the data word. DATA is part of the
request only when W = 1 (30_encoding.md R81); for a read the block never looks at `data`. -/
structure Request where
  header : Header
  data   : Word
  deriving DecidableEq, Repr

/-- The commands a legal CMD32 word names (30_encoding.md R84). -/
inductive Command where
  | nop
  | calibrate
  | clear
  deriving DecidableEq, Repr

/-- The operations of the opcode table. `rd32` and `wr32` are the HREQ rows, with ADDR and DATA as operands; `nop`,
`calibrate` and `clear` are the CMD32 rows: a WR32 to CMD that carries that command word (40_commands.md R108). -/
inductive Instr where
  | rd32 (off : Offset)
  | wr32 (off : Offset) (data : Word)
  | nop
  | calibrate
  | clear
  deriving DecidableEq, Repr

end Sys2Proof
end

