-- ==== Sys2Proof/Machine/State.lean ====
section
/-! DEFINITION. The state of the block, what arrives at it from outside, the reasons a step can stop, and the state
after reset (10_state.md, 70_reset_and_hazards.md R220). -/

namespace Sys2Proof.Machine

/-- The reasons a step could stop the machine with a fault. There is none: the block raises exactly three error
conditions, and each leaves it running, reported in a bus response or in a STATUS bit (60_exceptions.md R200). So the
type is closed and empty, and that is safe: no behaviour is cut off (DEDUCED, assumption 7). -/
inductive Fault where
  deriving DecidableEq, Repr

/-- The reasons the model could refuse an instruction. -/
inductive Refusal where
  /-- Raised only by an arm of `exec` whose instruction has no meaning yet; no arm raises it in this model. Safe: the
  model would stop where the hardware goes on. -/
  | notModelled (mnemonic : String)
  deriving DecidableEq, Repr

/-- The response code of a bus request (60_exceptions.md R204). -/
inductive Resp where
  | ok
  | err
  deriving DecidableEq, Repr

/-- The block's answer to one host request: the response code and, for a read, the data word (40_commands.md R101,
60_exceptions.md R201). -/
structure BusResponse where
  resp  : Resp
  rdata : Option Word
  deriving DecidableEq, Repr

/-- A bus access as the platform issues it, at a full platform address (20_memory.md R60, R61). `size` is coded as the
SIZE field of a header (30_encoding.md R81). -/
structure PlatformAccess where
  write : Bool
  size  : BitVec 2
  addr  : Nat
  data  : Word
  deriving DecidableEq, Repr

/-- What moves next. The block's history is one total order of atomic steps (20_memory.md R66), and this model reads
that order from data in the state, so that every interleaving of host and engine is some state's (DESIGN CHOICE, assumption 1). -/
inductive Event where
  /-- A host bus request reaches the block (40_commands.md R100). -/
  | request (r : Request)
  /-- The platform issues a bus access, which reaches the block only inside its window (20_memory.md R61). -/
  | access (a : PlatformAccess)
  /-- The engine's turn: its completion step, enabled only while BUSY = 1 (40_commands.md R100, R112). -/
  | engine
  /-- The platform asserts the reset input (70_reset_and_hazards.md R220). -/
  | reset
  deriving DecidableEq, Repr

/-- The state. Every field but the last five is architectural state the spec names. The model's own fields are
`response` and `inbox`, which say what crosses the block's boundary, `patience` and `runCount`, which carry the open
latency of a run, and `resetCount`. -/
structure State where
  /-- CTRL.IE, the done-interrupt enable (10_state.md R24). -/
  ie         : Bool
  /-- STATUS.BUSY (R25, R26): a calibration is accepted and not yet completed. -/
  busy       : Bool
  /-- STATUS.DONE (R25, R27). -/
  done       : Bool
  /-- STATUS.ERR_BUSY, sticky (R25, R28). -/
  errBusy    : Bool
  /-- STATUS.ERR_CMD, sticky (R25, R29). -/
  errCmd     : Bool
  /-- LEN, bits[7:0] (R31). -/
  len        : BitVec 8
  /-- RES_EDGE_POS to RES_PEAK_COUNT and the PEAK table (R32 to R39). -/
  results    : ResultRegs
  /-- The sample store SAMPLE[0..223] (R40). -/
  samples    : Vector Sample 224
  /-- The answer to the last host request; none before the first one after a reset (DESIGN CHOICE, assumption 6). -/
  response   : Option BusResponse
  /-- What the host, the engine's schedule and the platform present next, earliest first (DESIGN CHOICE, assumption 1). -/
  inbox      : List Event
  /-- How many resets this run has seen: the index of the draw that fills the sample store (DESIGN CHOICE, assumption 5). -/
  resetCount : Nat
  /-- While BUSY = 1: how many more host events can at the most come before the completion step, which is therefore held
  off only for a while, whatever the host does (70_reset_and_hazards.md R230; DESIGN CHOICE, assumption 22). -/
  patience   : Nat
  /-- The index of the draw that `patience` started from (DESIGN CHOICE, assumption 22). -/
  runCount   : Nat
  deriving DecidableEq, Repr

/-- The result registers after reset, as 70_reset_and_hazards.md R220 tabulates them. -/
def ResultRegs.reset : ResultRegs :=
  { edgePos     := 0xFFFFFFFF#32
    liqPos      := 0xFFFFFFFF#32
    thrNear     := 0x00000190#32
    bndNear     := 0x0000003C#32
    thrFar      := 0x000000FA#32
    bndFar      := 0x00000098#32
    edgeExt     := false
    noContainer := true
    peakCount   := 0#6
    peaks       := Vector.replicate 32 PeakEntry.zero }

/-- The sample store after the reset numbered `n`: one free value per sample (70_reset_and_hazards.md R228). -/
def samplesAtReset (n : Nat) : Vector Sample 224 := Vector.ofFn fun j => Config.sampleAtReset n j.val

/-- The state when the reset numbered `n` ends, with the latency of the draw numbered `draw` for the next run and with
`inbox` still to come from outside (70_reset_and_hazards.md R220). No completion step is pending, because BUSY = 0. -/
def State.afterReset (n draw : Nat) (inbox : List Event) : State :=
  { ie         := false
    busy       := false
    done       := false
    errBusy    := false
    errCmd     := false
    len        := 0#8
    results    := ResultRegs.reset
    samples    := samplesAtReset n
    response   := none
    inbox      := inbox
    resetCount := n
    patience   := Config.latency draw
    runCount   := draw }

/-- The block right after its first reset, with nothing presented to it (70_reset_and_hazards.md R220). -/
def State.reset : State := State.afterReset 0 0 []

end Sys2Proof.Machine
end

