-- ==== Sys2Proof/Machine/Flags.lean ====
section
/-! DEFINITION. The status flags: how the CTRL, STATUS and RES_FLAGS words are put together, the operations that set and
clear STATUS bits, and the irq level. The block has no other flags (10_state.md R43). -/

namespace Sys2Proof.Machine

/-- A word whose only bit that may be 1 is bit `n`. -/
def bitWord (n : Nat) (b : Bool) : Word := if b then 1#32 <<< n else 0#32

/-- CTRL as read: IE in bit 0, bits[31:1] zero (10_state.md R24). -/
def ctrlWord (s : State) : Word := bitWord 0 s.ie

/-- STATUS as read: BUSY, DONE, ERR_BUSY and ERR_CMD in bits 0 to 3, bits[31:4] zero (10_state.md R25). -/
def statusWord (s : State) : Word :=
  bitWord 0 s.busy ||| bitWord 1 s.done ||| bitWord 2 s.errBusy ||| bitWord 3 s.errCmd

/-- RES_FLAGS as read: EDGE_EXT in bit 0, NO_CONTAINER in bit 1 (10_state.md R34). -/
def flagsWord (r : ResultRegs) : Word := bitWord 0 r.edgeExt ||| bitWord 1 r.noContainer

/-- `set_err(ERR_BUSY)` (00_scope.md R11, 60_exceptions.md R203). -/
def setErrBusy (s : State) : State := { s with errBusy := true }

/-- `set_err(ERR_CMD)` (00_scope.md R11, 60_exceptions.md R202). -/
def setErrCmd (s : State) : State := { s with errCmd := true }

/-- A write to STATUS: a 1 in bit 1, 2 or 3 clears DONE, ERR_BUSY or ERR_CMD; every other bit is ignored
(40_commands.md R104). -/
def ackStatus (d : Word) (s : State) : State :=
  { s with
    done    := s.done && !d.getLsbD 1
    errBusy := s.errBusy && !d.getLsbD 2
    errCmd  := s.errCmd && !d.getLsbD 3 }

/-- The irq output, a level: CTRL.IE AND STATUS.DONE (60_exceptions.md R207). -/
def irq (s : State) : Bool := s.ie && s.done

/-- The code of a bus response (60_exceptions.md R204). -/
def respCode : Resp → BitVec 1
  | .ok  => 0#1
  | .err => 1#1

end Sys2Proof.Machine
end

