-- ==== Sys2Proof/WellFormed.lean ====
section
/-! DEFINITION. Which terms of `Instr` stand for a request of the encoding: the offset is 4-aligned (30_encoding.md
R82), and a WR32 to CMD that carries a legal command word is written with that command's own constructor. -/

namespace Sys2Proof

/-- ADDR[1:0] = 00 (30_encoding.md R82). -/
def Offset.aligned (off : Offset) : Bool := off.extractLsb' 0 2 == 0#2

/-- The CMD32 words that match a row of the command table exactly (30_encoding.md R84). -/
def isCommandWord (d : Word) : Bool := d == 0x00000000#32 || d == 0x00000001#32 || d == 0x00000002#32

/-- The offset of CMD (10_state.md R23). -/
def cmdOffset : Offset := 0x010#12

/-- The check of a term. Every 4-aligned offset is an operand of RD32 and of WR32; the one term shut out beside the
misaligned ones is a second spelling, `wr32` of a legal command word to CMD, whose request is read as `nop`,
`calibrate` or `clear` (DESIGN CHOICE, assumption 8: a name for the same request, no form of it is lost). -/
def Instr.wellFormed : Instr → Bool
  | .rd32 off      => off.aligned
  | .wr32 off data => off.aligned && !(off == cmdOffset && isCommandWord data)
  | .nop           => true
  | .calibrate     => true
  | .clear         => true

end Sys2Proof
end

