-- ==== Sys2Proof/Decode.lean ====
section
/-! DEFINITION. The decoder of host bus requests, total on every header and data word, and the encoder, both written
from 30_encoding.md R81 to R85. -/

namespace Sys2Proof

/-- Why a header is neither RD32 nor WR32; every one of these is an AccessFault (30_encoding.md R82). -/
inductive Reject where
  /-- SIZE = 00, an 8-bit access. -/
  | size8
  /-- SIZE = 01, a 16-bit access. -/
  | size16
  /-- SIZE = 11, reserved. -/
  | sizeReserved
  /-- SIZE = 10 and ADDR[1:0] ≠ 00. -/
  | misaligned
  deriving DecidableEq, Repr

/-- W, bit 14: 1 = write (30_encoding.md R81). -/
def Header.write (h : Header) : Bool := h.getLsbD 14

/-- SIZE, bits 13:12 (30_encoding.md R81). -/
def Header.size (h : Header) : BitVec 2 := h.extractLsb' 12 2

/-- ADDR, bits 11:0 (30_encoding.md R81). -/
def Header.addr (h : Header) : Offset := h.extractLsb' 0 12

/-- The header `{W, SIZE, ADDR}` (30_encoding.md R81). -/
def Header.make (w : Bool) (size : BitVec 2) (addr : Offset) : Header := BitVec.ofBool w ++ size ++ addr

/-- The command table: a CMD32 word is legal only if it is one of its rows exactly, mask 0xFFFFFFFF (30_encoding.md
R84, R85). -/
def decodeCommand (d : Word) : Option Command :=
  if d = 0x00000000#32 then some .nop
  else if d = 0x00000001#32 then some .calibrate
  else if d = 0x00000002#32 then some .clear
  else none

/-- The command word of a command (30_encoding.md R84). -/
def commandWord : Command → Word
  | .nop       => 0x00000000#32
  | .calibrate => 0x00000001#32
  | .clear     => 0x00000002#32

/-- The instruction that stands for a command. -/
def Command.instr : Command → Instr
  | .nop       => .nop
  | .calibrate => .calibrate
  | .clear     => .clear

/-- A WR32 at an aligned offset: a legal command word to CMD is that command (40_commands.md R108), everything else is
`wr32`, an illegal command word among it (R114). -/
def decodeWrite (off : Offset) (data : Word) : Instr :=
  if off = cmdOffset then
    match decodeCommand data with
    | some c => c.instr
    | none   => .wr32 off data
  else .wr32 off data

/-- Decoding of a host bus request: RD32, WR32 or an AccessFault, for every header (30_encoding.md R82). DATA is looked
at only when W = 1. -/
def decodeRequest (r : Request) : Except Reject Instr :=
  if r.header.size = 0b00#2 then .error .size8
  else if r.header.size = 0b01#2 then .error .size16
  else if r.header.size = 0b11#2 then .error .sizeReserved
  else if r.header.addr.aligned = false then .error .misaligned
  else if r.header.write then .ok (decodeWrite r.header.addr r.data)
  else .ok (.rd32 r.header.addr)

/-- The SIZE code of a 32-bit access (30_encoding.md R81). -/
def size32 : BitVec 2 := 0b10#2

/-- The request that carries a word to CMD: header 0x6010 (30_encoding.md R82, R89). -/
def commandRequest (d : Word) : Request := ⟨Header.make true size32 cmdOffset, d⟩

/-- The request of an instruction (30_encoding.md R82, R84, R88, R89). A read carries no data word; the field is 0. -/
def encode : Instr → Request
  | .rd32 off      => ⟨Header.make false size32 off, 0#32⟩
  | .wr32 off data => ⟨Header.make true size32 off, data⟩
  | .nop           => commandRequest (commandWord .nop)
  | .calibrate     => commandRequest (commandWord .calibrate)
  | .clear         => commandRequest (commandWord .clear)

/-- The request that the bits `w` of a table row stand for (DESIGN CHOICE, assumption 11). A row of at most 16 bits is an HREQ header,
15 bits wide, with a data word of zeros; a row of 32 bits is a CMD32 word, carried by a WR32 to CMD. -/
def tableRequest (nbits w : Nat) : Request :=
  if nbits ≤ 16 then ⟨BitVec.ofNat 15 w, 0#32⟩ else commandRequest (BitVec.ofNat 32 w)

/-- Whether the bits `w` have the form of a table row: a header has no bit above 14, and a CMD32 word is 32 bits wide and
matches a row of the command table (30_encoding.md R81, R84). -/
def isTableWord (nbits w : Nat) : Bool :=
  if nbits ≤ 16 then decide (w < 2 ^ 15)
  else decide (nbits ≤ 32) && decide (w < 2 ^ 32) && (decodeCommand (BitVec.ofNat 32 w)).isSome

/-- The instruction the decoder reads from the bits of a table row. -/
def decodeTableWord (nbits w : Nat) : Option Instr :=
  if isTableWord nbits w then
    match decodeRequest (tableRequest nbits w) with
    | .ok i    => some i
    | .error _ => none
  else none

end Sys2Proof
end

