-- ==== Sys2Proof/Machine/Operands.lean ====
section
/-! DEFINITION. The operand of a register access: which register a byte offset of the window names (10_state.md R23,
R37, R38, R40). -/

namespace Sys2Proof.Machine

/-- The words of a PEAK entry (10_state.md R37). -/
inductive PeakField where
  | pos
  | amp
  | left
  | right
  | prom
  | role
  | reserved
  deriving DecidableEq, Repr

/-- The registers of the window (10_state.md R23). -/
inductive Reg where
  | id
  | version
  | ctrl
  | status
  | cmd
  | len
  | edgePos
  | liqPos
  | thrNear
  | bndNear
  | thrFar
  | bndFar
  | flags
  | peakCount
  | peak (k : Fin 32) (f : PeakField)
  | sample (j : Fin 224)
  | reserved
  deriving DecidableEq, Repr

/-- The word of a PEAK entry at an offset inside the entry (10_state.md R37). -/
def peakFieldAt (o : Nat) : PeakField :=
  if o = 0x00 then .pos
  else if o = 0x04 then .amp
  else if o = 0x08 then .left
  else if o = 0x0C then .right
  else if o = 0x10 then .prom
  else if o = 0x14 then .role
  else .reserved

/-- The PEAK table, the sample store and the reserved ranges (10_state.md R23, R37, R38, R40). -/
def tableRegAt (off : Nat) : Reg :=
  if h : 0x400 ≤ off ∧ off < 0x800 then .peak ⟨(off - 0x400) / 32, by omega⟩ (peakFieldAt ((off - 0x400) % 32))
  else if h : 0x800 ≤ off ∧ off < 0xB80 then .sample ⟨(off - 0x800) / 4, by omega⟩
  else .reserved

/-- The register at a 4-aligned offset of the window (10_state.md R23). -/
def regAt (off : Nat) : Reg :=
  if off = 0x000 then .id
  else if off = 0x004 then .version
  else if off = 0x008 then .ctrl
  else if off = 0x00C then .status
  else if off = 0x010 then .cmd
  else if off = 0x014 then .len
  else if off = 0x020 then .edgePos
  else if off = 0x024 then .liqPos
  else if off = 0x028 then .thrNear
  else if off = 0x02C then .bndNear
  else if off = 0x030 then .thrFar
  else if off = 0x034 then .bndFar
  else if off = 0x038 then .flags
  else if off = 0x03C then .peakCount
  else tableRegAt off

/-- The header of the request a platform access makes of the block, if its address lies in the window BASE + 0x000 to
BASE + 0xFFF (20_memory.md R60, R61). -/
def requestOf (a : PlatformAccess) : Option Request :=
  if Config.base ≤ a.addr ∧ a.addr < Config.base + 0x1000 then
    some ⟨Header.make a.write a.size (BitVec.ofNat 12 (a.addr - Config.base)), a.data⟩
  else none

end Sys2Proof.Machine
end

