-- ==== Sys2Proof/Machine/Ops.lean ====
section
/-! DEFINITION. The named operations on registers that every access and command is made of: reading a register word,
answering a request, the AccessFault, the refusal while BUSY, the three commands and WR32's dispatch. -/

namespace Sys2Proof.Machine

/-- The word of a PEAK entry (10_state.md R37, 30_encoding.md R87). -/
def peakWord (e : PeakEntry) : PeakField → Word
  | .pos      => e.pos
  | .amp      => e.amp.setWidth 32
  | .left     => e.left
  | .right    => e.right
  | .prom     => e.prom.setWidth 32
  | .role     => e.role.code.setWidth 32
  | .reserved => 0#32

/-- The data of a register read (30_encoding.md R87, 40_commands.md R101): narrow fields are zero-extended, CMD and
reserved offsets read 0. -/
def readReg (s : State) : Reg → Word
  | .id         => Params.idWord
  | .version    => Params.versionWord
  | .ctrl       => ctrlWord s
  | .status     => statusWord s
  | .cmd        => 0#32
  | .len        => s.len.setWidth 32
  | .edgePos    => s.results.edgePos
  | .liqPos     => s.results.liqPos
  | .thrNear    => s.results.thrNear
  | .bndNear    => s.results.bndNear
  | .thrFar     => s.results.thrFar
  | .bndFar     => s.results.bndFar
  | .flags      => flagsWord s.results
  | .peakCount  => s.results.peakCount.setWidth 32
  | .peak k f   => peakWord s.results.peaks[k] f
  | .sample j   => s.samples[j].setWidth 32
  | .reserved   => 0#32

/-- The word at a 4-aligned offset of the window. -/
def readWord (s : State) (off : Nat) : Word := readReg s (regAt off)

/-- The byte at offset `a` of the window, little-endian: byte b of a word is its bits[8b+7:8b] (20_memory.md R63). -/
def readByte (s : State) (a : Nat) : Byte := (readWord s (4 * (a / 4))).extractLsb' (8 * (a % 4)) 8

/-- The block answers the host's request. -/
def respond (r : BusResponse) (s : State) : State := { s with response := some r }

/-- The OK answer to a read (40_commands.md R101). -/
def respondRead (w : Word) (s : State) : State := respond ⟨.ok, some w⟩ s

/-- The OK answer to a write; it carries no data (60_exceptions.md R204). -/
def respondWrite (s : State) : State := respond ⟨.ok, none⟩ s

/-- `raise AccessFault(req)`: the error response, with read data 0 for a read, and no other change. The block saves
nothing and transfers control nowhere; there is no cause or address register (60_exceptions.md R201, R204). -/
def accessFault (write : Bool) (s : State) : State :=
  respond ⟨.err, if write then none else some 0x00000000#32⟩ s

/-- The one form of a return from an error: the host writes 1 to the sticky bits, and nothing is restored
(60_exceptions.md R209; `ackerr` of 30_encoding.md R89). -/
def ackErrors (s : State) : State := ackStatus 0x0000000C#32 s

/-- An access that is refused while BUSY = 1 with ERR_BUSY and no other effect, and gives `accepted` otherwise
(60_exceptions.md R203). -/
def unlessBusy (s accepted : State) : State := if s.busy then setErrBusy s else accepted

/-- The value a write of `d` stores in LEN: `min(d[7:0], 224)` (10_state.md R31). -/
def clampLen (d : Word) : BitVec 8 :=
  if (d.extractLsb' 0 8).toNat ≤ Params.profileLen then d.extractLsb' 0 8 else BitVec.ofNat 8 Params.profileLen

/-- WR32 CTRL: `CTRL.IE <- d[0]` (40_commands.md R103). -/
def writeCtrl (d : Word) (s : State) : State := { s with ie := d.getLsbD 0 }

/-- WR32 LEN (40_commands.md R105). -/
def writeLen (d : Word) (s : State) : State := unlessBusy s { s with len := clampLen d }

/-- WR32 SAMPLE[j]: `S[j] <- d[15:0]` (40_commands.md R106). -/
def writeSample (j : Fin 224) (d : Word) (s : State) : State :=
  unlessBusy s { s with samples := s.samples.set j (d.extractLsb' 0 16) }

/-- NOP: no state changes (40_commands.md R109). -/
def noOperation (s : State) : State := s

/-- CALIBRATE: start a run, or refuse it while one is running (40_commands.md R110). -/
def startCalibration (s : State) : State := unlessBusy s { s with busy := true, done := false }

/-- CLEAR: WriteResult(SENTINEL) and DONE <- 0, or refused while BUSY (40_commands.md R111). -/
def clearResults (s : State) : State := unlessBusy s { s with results := resultRegs sentinel, done := false }

/-- WR32 CMD: the command a word names, or ERR_CMD; legality is decided before BUSY is examined (40_commands.md R108,
R114). -/
def runCommand (d : Word) (s : State) : State :=
  match decodeCommand d with
  | some .nop       => noOperation s
  | some .calibrate => startCalibration s
  | some .clear     => clearResults s
  | none            => setErrCmd s

/-- WR32's dispatch on the register written; a read-only or reserved register ignores the write (40_commands.md R102,
R107). -/
def writeReg (d : Word) (s : State) : Reg → State
  | .ctrl      => writeCtrl d s
  | .status    => ackStatus d s
  | .cmd       => runCommand d s
  | .len       => writeLen d s
  | .sample j  => writeSample j d s
  | .id        => s
  | .version   => s
  | .edgePos   => s
  | .liqPos    => s
  | .thrNear   => s
  | .bndNear   => s
  | .thrFar    => s
  | .bndFar    => s
  | .flags     => s
  | .peakCount => s
  | .peak _ _  => s
  | .reserved  => s

/-- WR32 of `d` at a 4-aligned offset of the window. -/
def writeWord (s : State) (off : Nat) (d : Word) : State := writeReg d s (regAt off)

end Sys2Proof.Machine
end

