-- ==== Sys2Proof/Machine/Access.lean ====
section
/-! DEFINITION. The meanings of the HREQ rows: RD32 and WR32 (40_commands.md R101, R102). A term with a misaligned
offset stands for no RD32 and no WR32; its request is an AccessFault, and that is what it does here (30_encoding.md
R82, 60_exceptions.md R201; DESIGN CHOICE, assumption 18). -/

namespace Sys2Proof.Machine

/-- RD32: answer the word at `off`; a read changes nothing else (40_commands.md R101, 20_memory.md R65). -/
def execRd32 (off : Offset) (s : State) : Host.Outcome State Fault Refusal :=
  .next (if off.aligned then respondRead (readWord s off.toNat) s else accessFault false s)

/-- WR32: the effect of the register written, and the OK answer (40_commands.md R102). -/
def execWr32 (off : Offset) (data : Word) (s : State) : Host.Outcome State Fault Refusal :=
  .next (if off.aligned then respondWrite (writeWord s off.toNat data) else accessFault true s)

end Sys2Proof.Machine
end

