-- ==== Sys2Proof/Machine/Commands.lean ====
section
/-! DEFINITION. The meanings of the CMD32 rows: NOP, CALIBRATE and CLEAR (40_commands.md R109 to R111). Each arrives as
a WR32 to CMD, so each is answered OK as a write is, refused or not (60_exceptions.md R203). -/

namespace Sys2Proof.Machine

/-- NOP (40_commands.md R109). -/
def execNop (s : State) : Host.Outcome State Fault Refusal := .next (respondWrite (noOperation s))

/-- CALIBRATE (40_commands.md R110). -/
def execCalibrate (s : State) : Host.Outcome State Fault Refusal := .next (respondWrite (startCalibration s))

/-- CLEAR (40_commands.md R111). -/
def execClear (s : State) : Host.Outcome State Fault Refusal := .next (respondWrite (clearResults s))

end Sys2Proof.Machine
end

