-- ==== Sys2Proof/Machine/Dispatch.lean ====
section
/-! DEFINITION. One arm per constructor of `Instr`. -/

namespace Sys2Proof.Machine

def exec (i : Instr) (s : State) : Host.Outcome State Fault Refusal :=
  match i with
  -- HREQ rows
  | .rd32 off => Sys2Proof.Machine.execRd32 off s
  | .wr32 off data => Sys2Proof.Machine.execWr32 off data s
  -- CMD32 rows
  | .nop => Sys2Proof.Machine.execNop s
  | .calibrate => Sys2Proof.Machine.execCalibrate s
  | .clear => Sys2Proof.Machine.execClear s

end Sys2Proof.Machine
end

