-- ==== Sys2Proof/Machine/Classify.lean ====
section
/-! DEFINITION. Classification and edge-cluster extension, for lists of at least two peaks (44_classification.md R150
to R159). A set of peaks is given as the list of the peaks themselves, in ascending position order. -/

namespace Sys2Proof.Machine

/-- `lim`: 40% of the remaining window past the edge position `e` (44_classification.md R153). -/
def liquidLimit (e : Nat) : Nat :=
  e + (Params.winLen - e) * Params.liqFracNum / Params.liqFracDen

/-- One step of the scan for the highest peak beyond `lim`; the first of equal peaks is kept (44_classification.md
R153). -/
def liquidScanStep (P : List EchoPeak) (lim : Nat) (li : Option Nat) (k : Nat) : Option Nat :=
  if (peakAt P k).position > lim then
    match li with
    | none   => some k
    | some b => if (peakAt P k).amplitude > (peakAt P b).amplitude then some k else some b
  else li

/-- The index of the Liquid peak: the later of two peaks (44_classification.md R151); of three or more, the highest one
beyond `lim`, or else the last one (R153). -/
def liquidIndex (P : List EchoPeak) : Nat :=
  if P.length = 2 then 1
  else
    match (List.range' 1 (P.length - 1)).foldl (liquidScanStep P (liquidLimit (peakAt P 0).position)) none with
    | some k => k
    | none   => P.length - 1

/-- The role of peak k when the Liquid peak is peak `li` (44_classification.md R151, R152, R154). -/
def roleOf (li k : Nat) : Role := if k = 0 then .edge else if k = li then .liquid else .interference

/-- Classify(P): the peaks with their roles (44_classification.md R150). -/
def classify (P : List EchoPeak) : List EchoPeak := P.mapIdx fun k q => { q with role := roleOf (liquidIndex P) k }

/-- Every Interference peak (44_classification.md R157). -/
def interference (P : List EchoPeak) : List EchoPeak := P.filter fun q => q.role == .interference

/-- `B`, the Interference peaks strictly between the Edge and the Liquid peak (44_classification.md R155). -/
def betweenPeaks (P : List EchoPeak) (E L : EchoPeak) : List EchoPeak :=
  (interference P).filter fun q => decide (E.position < q.position) && decide (q.position < L.position)

/-- The greatest amplitude of a list, 0 of none. -/
def maxAmplitude (Q : List EchoPeak) : Nat := Q.foldl (fun a q => max a q.amplitude) 0

/-- The greatest right bound of a list, 0 of none. -/
def maxRightBound (Q : List EchoPeak) : Nat := Q.foldl (fun a q => max a q.rightBound) 0

/-- The strongest peak of a list, the first of equals (44_classification.md R155). -/
def strongest (B : List EchoPeak) : Option EchoPeak := B.find? fun q => q.amplitude == maxAmplitude B

/-- What edge-cluster extension settles: `edgeClusterRight`, `edgeClusterAmplitude`, `edgeExtended` and the far set F
(44_classification.md R155, R157). -/
structure EdgeCluster where
  right     : Nat
  amplitude : Nat
  extended  : Bool
  far       : List EchoPeak
  deriving DecidableEq, Repr

/-- The cluster without an extension: the Edge peak's own values, and every Interference peak in F (44_classification.md
R155, R157). -/
def plainCluster (P : List EchoPeak) (E : EchoPeak) : EdgeCluster :=
  ⟨E.rightBound, E.amplitude, false, interference P⟩

/-- The cluster extended by the peak `st`; F is the right-interference subset, with no upper limit (44_classification.md
R155 to R157). -/
def extendedCluster (P : List EchoPeak) (st : EchoPeak) : EdgeCluster :=
  ⟨st.rightBound, st.amplitude, true, (interference P).filter fun q => decide (q.position > st.position)⟩

/-- EdgeCluster(P, li), for the classified P (44_classification.md R155). No record of P changes (R159). -/
def edgeCluster (P : List EchoPeak) (li : Nat) : EdgeCluster :=
  match strongest (betweenPeaks P (peakAt P 0) (peakAt P li)) with
  | none    => plainCluster P (peakAt P 0)
  | some st =>
    if st.amplitude ≥ (peakAt P 0).amplitude then extendedCluster P st else plainCluster P (peakAt P 0)

end Sys2Proof.Machine
end

