-- ==== Sys2Proof/Machine/Smooth.lean ====
section
/-! DEFINITION. The first stages of Calibrate: window extraction and smoothing (41_window_and_smoothing.md R121 to
R123). A window, raw or smoothed, is the list of its samples, local coordinate 0 first. -/

namespace Sys2Proof.Machine

/-- `S[j]` as an unsigned number (10_state.md R40). -/
def rawSample (S : Vector Sample 224) (j : Nat) : Nat := (S.toList.getD j 0#16).toNat

/-- The extracted window: `w[i] <- S[40 + i]` for i in 0..130 (41_window_and_smoothing.md R121). -/
def extractWindow (S : Vector Sample 224) : List Nat :=
  (List.range Params.winLen).map fun i => rawSample S (Params.winOff + i)

/-- `s[i]` of a window (00_scope.md R11). -/
def sampleAt (s : List Nat) (i : Nat) : Nat := s.getD i 0

/-- The samples `s[lo] .. s[hi]`, both included. -/
def slice (s : List Nat) (lo hi : Nat) : List Nat := (s.drop lo).take (hi + 1 - lo)

/-- One smoothed sample: the truncated mean over the span that reaches `half` samples to each side, cut at the window's
ends (41_window_and_smoothing.md R122). -/
def smoothAt (half : Nat) (w : List Nat) (i : Nat) : Nat :=
  let lo := i - half
  let hi := min (Params.winLen - 1) (i + half)
  (slice w lo hi).sum / (hi - lo + 1)

/-- Smoothing with a width: a width of at most 1 is a pass-through copy, and otherwise the half-width is `width / 2`
(41_window_and_smoothing.md R122, R123). -/
def smoothWith (width : Nat) (w : List Nat) : List Nat :=
  if width ≤ 1 then w else (List.range Params.winLen).map (smoothAt (width / 2) w)

/-- Smooth(w), with the block's width SMOOTH_W (41_window_and_smoothing.md R122). -/
def smooth (w : List Nat) : List Nat := smoothWith Params.smoothW w

end Sys2Proof.Machine
end

