-- ==== Sys2Proof/Machine/Detect.lean ====
section
/-! DEFINITION. Peak detection on the smoothed window (42_peak_detection.md R130 to R136). -/

namespace Sys2Proof.Machine

/-- Candidate(s, i), for i with both neighbours (42_peak_detection.md R131). -/
def candidate (s : List Nat) (i : Nat) : Bool :=
  decide (sampleAt s i > sampleAt s (i - 1)) && decide (sampleAt s i ≥ sampleAt s (i + 1)) &&
    decide (sampleAt s i ≥ Params.detThr)

/-- The test of one step outward from a bound: the next sample does not rise, is positive and exceeds BND_THR
(42_peak_detection.md R132, R133). -/
def boundExtends (cur next : Nat) : Bool :=
  decide (next ≤ cur) && decide (next > 0) && decide (next > Params.bndThr)

/-- LeftBound(s, l): the walk to the left, which stops at index 0 (42_peak_detection.md R132). -/
def leftBound (s : List Nat) : Nat → Nat
  | 0     => 0
  | l + 1 => if boundExtends (sampleAt s (l + 1)) (sampleAt s l) then leftBound s l else l + 1

/-- The walk to the right from `r`, over at most `n` more indices (42_peak_detection.md R133). -/
def rightWalk (s : List Nat) : Nat → Nat → Nat
  | 0,     r => r
  | n + 1, r => if boundExtends (sampleAt s r) (sampleAt s (r + 1)) then rightWalk s n (r + 1) else r

/-- RightBound(s, r), which stops at index 130 (42_peak_detection.md R133). -/
def rightBound (s : List Nat) (r : Nat) : Nat := rightWalk s (Params.winLen - 1 - r) r

/-- The minimum of `s[lo] .. s[hi]`, for lo ≤ hi. -/
def minOver (s : List Nat) (lo hi : Nat) : Nat := (slice s lo hi).foldl min (sampleAt s lo)

/-- Prominence(s, i, l, r) (42_peak_detection.md R134). Both valley windows hold a bound sample, which is at most
`s[i]`, so the subtraction is exact. -/
def prominence (s : List Nat) (i l r : Nat) : Nat :=
  let leftMin  := minOver s (l - (Params.promWin - 1)) l
  let rightMin := minOver s r (min (Params.winLen - 1) (r + (Params.promWin - 1)))
  sampleAt s i - min leftMin rightMin

/-- The candidate record of index i (42_peak_detection.md R135). -/
def candidateRecord (s : List Nat) (i : Nat) : EchoPeak :=
  { position   := i
    amplitude  := sampleAt s i
    leftBound  := leftBound s i
    rightBound := rightBound s i
    prominence := prominence s i (leftBound s i) (rightBound s i)
    role       := .unknown }

/-- The scan over the indices still to be examined, with the candidates held so far. The cap is checked before an index
is examined (42_peak_detection.md R130, R136). -/
def scan (s : List Nat) : List Nat → List EchoPeak → List EchoPeak
  | [],      C => C
  | i :: is, C =>
    if C.length = Params.maxPeaks then C
    else if candidate s i then scan s is (C ++ [candidateRecord s i])
    else scan s is C

/-- Detect(s): the scan of the interior indices 1..129 (42_peak_detection.md R130). -/
def detect (s : List Nat) : List EchoPeak := scan s (List.range' 1 (Params.winLen - 2)) []

end Sys2Proof.Machine
end

