-- ==== Sys2Proof/Machine/Merge.lean ====
section
/-! DEFINITION. Sorting, merging and the emission filter (43_merging.md R140 to R145). -/

namespace Sys2Proof.Machine

/-- Insert a peak into a list in ascending position order, before the first peak that lies after it. -/
def insertByPosition (p : EchoPeak) : List EchoPeak → List EchoPeak
  | []     => [p]
  | q :: L => if p.position ≤ q.position then p :: q :: L else q :: insertByPosition p L

/-- Sort by ascending position (43_merging.md R140). -/
def sortByPosition : List EchoPeak → List EchoPeak
  | []     => []
  | p :: L => insertByPosition p (sortByPosition L)

/-- Mergeable(cl, c) (43_merging.md R142). The difference is written as a sum, so that it is exact for any two
positions. -/
def mergeable (cl c : EchoPeak) : Bool :=
  decide (c.position ≤ cl.position + Params.mergeDist) &&
    decide (min cl.amplitude c.amplitude * Params.mergeRatioDen > max cl.amplitude c.amplitude * Params.mergeRatioNum)

/-- Absorb(cl, c) (43_merging.md R143). On equal amplitudes the cluster keeps its own position. -/
def absorb (cl c : EchoPeak) : EchoPeak :=
  { position   := if c.amplitude > cl.amplitude then c.position else cl.position
    amplitude  := if c.amplitude > cl.amplitude then c.amplitude else cl.amplitude
    leftBound  := min cl.leftBound c.leftBound
    rightBound := max cl.rightBound c.rightBound
    prominence := max cl.prominence c.prominence
    role       := .unknown }

/-- The emission filter on a finished cluster (43_merging.md R144). -/
def emit (cl : EchoPeak) : List EchoPeak := if cl.prominence ≥ Params.minProm then [cl] else []

/-- The walk over the candidates still to come, with the running cluster (43_merging.md R141). -/
def mergeWalk (cl : EchoPeak) : List EchoPeak → List EchoPeak
  | []     => emit cl
  | c :: C => if mergeable cl c then mergeWalk (absorb cl c) C else emit cl ++ mergeWalk c C

/-- The cluster walk over a sorted list (43_merging.md R141). -/
def mergeSorted : List EchoPeak → List EchoPeak
  | []      => []
  | c :: C  => mergeWalk c C

/-- Merge(C): sort, then walk (43_merging.md R140, R141). -/
def merge (C : List EchoPeak) : List EchoPeak := mergeSorted (sortByPosition C)

end Sys2Proof.Machine
end

