-- ==== Sys2Proof/Machine/Threshold.lean ====
section
/-! DEFINITION. Threshold derivation and the ordering guarantee (45_thresholds.md R160 to R164). Boundaries are
integers, so that no subtraction is cut off. -/

namespace Sys2Proof.Machine

/-- The near boundary, local (45_thresholds.md R160). -/
def nearBoundary (cr L : Nat) : Int := min ((cr : Int) + Params.nearMargin) ((L : Int) - Params.liqNearMargin)

/-- The near threshold, an amplitude, never offset (45_thresholds.md R161, 90_conflicts.md C1). -/
def nearThreshold (ca : Nat) : Nat := ca + ca * Params.nearScaleNum / Params.nearScaleDen

/-- Whether a quiet run starts at p: QUIET_RUN consecutive smoothed samples below QUIET_THR (45_thresholds.md R162). -/
def quietAt (s : List Nat) (p : Nat) : Bool :=
  (List.range Params.quietRun).all fun k => decide (sampleAt s (p + k) < Params.quietThr)

/-- The search for the first quiet run from p on, all of it before L, over at most `n` starting points (45_thresholds.md
R162). -/
def quietSearch (s : List Nat) (L : Nat) : Nat → Nat → Option Nat
  | 0,     _ => none
  | n + 1, p =>
    if p + (Params.quietRun - 1) < L then
      if quietAt s p then some p else quietSearch s L n (p + 1)
    else none

/-- The far boundary before the cap: the quiet run's start, or the local default. The search has no more than `L`
starting points before L (45_thresholds.md R162). -/
def farBase (s : List Nat) (farRight : Option Nat) (L : Nat) : Nat :=
  match farRight with
  | none   => Params.farDefaultLocal
  | some p => (quietSearch s L L p).getD Params.farDefaultLocal

/-- FarBoundary(s, F, L), local, where `farRight` is the greatest right bound of F, none if F is empty (45_thresholds.md
R162, 90_conflicts.md C4). -/
def farBoundary (s : List Nat) (farRight : Option Nat) (L : Nat) : Int :=
  min (farBase s farRight L : Int) ((L : Int) - Params.farCapMargin)

/-- The ×1.2 scaling of the far threshold (45_thresholds.md R163). -/
def farScale (a : Nat) : Nat := a + (a * Params.farScaleNum + Params.farScaleRound) / Params.farScaleDen

/-- FarThreshold(F), where `farAmp` is the greatest amplitude of F, none if F is empty (45_thresholds.md R163). -/
def farThreshold (farAmp : Option Nat) : Nat := farScale (farAmp.getD Params.farThrDefault)

/-- Order(bn, bf), on raw values: the pair (boundaryNear, boundaryFar) (45_thresholds.md R164). -/
def orderBoundaries (bn bf : Int) : Int × Int :=
  if bf < bn then (bf, bn) else if bf = bn then (bn, bf + 1) else (bn, bf)

end Sys2Proof.Machine
end

