-- ==== Sys2Proof/Machine/Calibrate.lean ====
section
/-! DEFINITION. Calibrate(S, LEN), the pure function the engine evaluates (40_commands.md R113), and Assemble
(45_thresholds.md R165). -/

namespace Sys2Proof.Machine

/-- A coordinate in raw form (00_scope.md R12). -/
def toRaw (i : Int) : Int := i + Params.winOff

/-- A peak record with its positions in raw coordinates; amplitude and prominence are not offset (45_thresholds.md
R165). -/
def rawPeak (q : EchoPeak) : EchoPeak :=
  { q with
    position   := q.position + Params.winOff
    leftBound  := q.leftBound + Params.winOff
    rightBound := q.rightBound + Params.winOff }

/-- Assemble: the result record of a classified P (45_thresholds.md R165). -/
def assemble (P : List EchoPeak) (li : Nat) (tn : Nat) (b : Int × Int) (tf : Nat) (ext : Bool) : ThresholdResult :=
  { edgePosition   := toRaw (peakAt P 0).position
    liquidPosition := toRaw (peakAt P li).position
    thresholdNear  := tn
    boundaryNear   := b.1
    thresholdFar   := tf
    boundaryFar    := b.2
    edgeExtended   := ext
    peaks          := P.map rawPeak }

/-- The greatest value of `f` over the far set, none if it is empty. -/
def overFar (f : List EchoPeak → Nat) (F : List EchoPeak) : Option Nat := if F.isEmpty then none else some (f F)

/-- Steps 5 to 10 of the algorithm, for a classified P of at least two peaks (40_commands.md R113). -/
def deriveResult (s : List Nat) (P : List EchoPeak) (li : Nat) : ThresholdResult :=
  let c := edgeCluster P li
  let L := (peakAt P li).position
  assemble P li (nearThreshold c.amplitude)
    (orderBoundaries (toRaw (nearBoundary c.right L)) (toRaw (farBoundary s (overFar maxRightBound c.far) L)))
    (farThreshold (overFar maxAmplitude c.far)) c.extended

/-- The algorithm from the merged peaks on: the early exit, or classification and what follows (43_merging.md R146,
40_commands.md R113). -/
def resultOfPeaks (s : List Nat) (P : List EchoPeak) : ThresholdResult :=
  if P.length < 2 then sentinel else deriveResult s (classify P) (liquidIndex P)

/-- The algorithm on a smoothed window (40_commands.md R113). -/
def analyse (s : List Nat) : ThresholdResult := resultOfPeaks s (merge (detect s))

/-- Calibrate(S, LEN) (40_commands.md R113), with the length check of 41_window_and_smoothing.md R120. -/
def calibrate (S : Vector Sample 224) (len : Nat) : ThresholdResult :=
  if len < Params.minRawLen then sentinel else analyse (smooth (extractWindow S))

end Sys2Proof.Machine
end

