-- ==== Sys2Proof/Machine/Engine.lean ====
section
/-! DEFINITION. The engine's completion step (40_commands.md R112) and the platform's reset (70_reset_and_hazards.md
R220, R221). -/

namespace Sys2Proof.Machine

/-- CAL_COMPLETE: one atomic step that writes every result register and the PEAK table, sets DONE and clears BUSY
(40_commands.md R112). It reads the sample store and LEN as they stand, which are those at acceptance, because they are
frozen while BUSY = 1 (20_memory.md R69; DEDUCED, assumption 14). -/
def complete (s : State) : State :=
  { s with
    results := resultRegs (calibrate s.samples s.len.toNat)
    done    := true
    busy    := false }

/-- A new latency for the next run (70_reset_and_hazards.md R229; DESIGN CHOICE, assumption 22). -/
def drawLatency (s : State) : State :=
  { s with
    patience := Config.latency (s.runCount + 1)
    runCount := s.runCount + 1 }

/-- The engine's turn: the completion step is enabled exactly when BUSY = 1 (40_commands.md R100, R112); a turn without
it changes nothing (DESIGN CHOICE, assumption 16). -/
def engineTurn (s : State) : State := if s.busy then drawLatency (complete s) else s

/-- The completion step can be held off no longer: a run is in progress and has no host event left to let pass
(70_reset_and_hazards.md R230; DESIGN CHOICE, assumption 22). -/
def engineDue (s : State) : Bool := s.busy && s.patience == 0

/-- The platform's reset: every field at its reset value, a new draw for the sample store, and a run in progress is
aborted, since BUSY becomes 0. What is still to arrive from outside is not the block's state and stays
(70_reset_and_hazards.md R220, R221, R228; DESIGN CHOICE, assumption 12). -/
def platformReset (s : State) : State := State.afterReset (s.resetCount + 1) (s.runCount + 1) s.inbox

end Sys2Proof.Machine
end

