-- ==== Sys2Proof/Machine/Bus.lean ====
section
/-! DEFINITION. What each event does to the block: a host request is decoded and executed or faults (40_commands.md
R100), a platform access becomes a request if it lies in the window (20_memory.md R61). -/

namespace Sys2Proof.Machine

/-- A host step: one bus request, decoded; an undecodable header is an AccessFault (40_commands.md R100,
60_exceptions.md R201). -/
def hostStep (r : Request) (s : State) : Host.Outcome State Fault Refusal :=
  match decodeRequest r with
  | .ok i    => exec i s
  | .error _ => .next (accessFault r.header.write s)

/-- A platform access: a host step if it lies in the window, and otherwise nothing reaches the block (20_memory.md
R61). -/
def platformAccess (a : PlatformAccess) (s : State) : Host.Outcome State Fault Refusal :=
  match requestOf a with
  | some r => hostStep r s
  | none   => .next s

/-- An event of the host: a request or a bus access. -/
def hostEvent : Event → Bool
  | .request _ => true
  | .access _  => true
  | .engine    => false
  | .reset     => false

/-- The state in which the event `e` is handled: the inbox without it, and, if it is the host's and a run is in
progress, one host event fewer that the engine lets pass (70_reset_and_hazards.md R230). -/
def takeEvent (e : Event) (rest : List Event) (s : State) : State :=
  { s with
    inbox    := rest
    patience := if hostEvent e && s.busy then s.patience - 1 else s.patience }

/-- One event. -/
def handleEvent (e : Event) (s : State) : Host.Outcome State Fault Refusal :=
  match e with
  | .request r => hostStep r s
  | .access a  => platformAccess a s
  | .engine    => .next (engineTurn s)
  | .reset     => .next (platformReset s)

/-- The first event of the inbox is taken, unless it is the host's and the completion step can be held off no longer;
then, and when nothing is presented, it is the engine's turn. So a run completes whatever the host does
(70_reset_and_hazards.md R230; DESIGN CHOICE, assumptions 2 and 22). -/
def nextMove (s : State) : Host.Outcome State Fault Refusal :=
  match s.inbox with
  | []        => .next (engineTurn s)
  | e :: rest => if hostEvent e && engineDue s then .next (engineTurn s) else handleEvent e (takeEvent e rest s)

/-- The state with a request presented before everything else. -/
def presentFirst (r : Request) (s : State) : State := { s with inbox := .request r :: s.inbox }

/-- The engine lets one host event more pass, if a run is in progress. -/
def letOneMorePass (s : State) : State := { s with patience := if s.busy then s.patience + 1 else s.patience }

end Sys2Proof.Machine
end

