-- ==== Sys2Proof/Machine/Step.lean ====
section
/-! DEFINITION. One step of the block, and how a word of the opcode table is placed to be the next one run. -/

namespace Sys2Proof.Machine

/-- One atomic step of the block's history (20_memory.md R66). -/
def step (s : State) : Host.Outcome State Fault Refusal := nextMove s

/-- The state whose next step runs the request a row's bits stand for: that request comes first in the inbox
(DESIGN CHOICE, assumptions 3 and 11), and a run in progress lets it pass. When it has been taken, the rest of the state
is as it was. -/
def State.withFetchWord (s : State) (nbits w : Nat) : State :=
  letOneMorePass (presentFirst (tableRequest nbits w) s)

end Sys2Proof.Machine
end

