-- ==== Sys2Proof/Machine/Environment.lean ====
section
/-! DEFINITION. Histories of the block under an environment that goes on without end: hosts that react to what they
read, poll for ever, or never stop presenting requests (20_memory.md R66, 70_reset_and_hazards.md R230). -/

namespace Sys2Proof.Machine

/-- What is presented at each step: the inbox, chosen from the number of the step and the state before it. -/
abbrev Environment := Nat → State → List Event

/-- The first `k` steps of the block under an environment. -/
def drive (env : Environment) : Nat → State → Host.Outcome State Fault Refusal
  | 0,     s => .next s
  | k + 1, s =>
    match drive env k s with
    | .next t    => step { t with inbox := env k t }
    | .fault r   => .fault r
    | .refused r => .refused r

end Sys2Proof.Machine
end

