-- ==== Sys2Proof/Machine/Script.lean ====
section
/-! DEFINITION. The host-script notation of 30_encoding.md R88 and R89, as the bus requests it stands for. Branching,
polling and halting are host behaviour, outside the block (R88): of `poll` and `bif` the model holds the request they
repeat and the test they make of the data. -/

namespace Sys2Proof.Machine

/-- `rd <off>` (30_encoding.md R88). -/
def scriptRd (off : Offset) : Request := encode (.rd32 off)

/-- `wr <off>, <val>` (30_encoding.md R88). -/
def scriptWr (off : Offset) (val : Word) : Request := encode (.wr32 off val)

/-- The test of `poll` and `bif`: `(data & mask) == val` (30_encoding.md R88). -/
def scriptTest (data mask val : Word) : Bool := data &&& mask == val

/-- `nop` (30_encoding.md R89). -/
def scriptNop : Request := scriptWr 0x010 0x00000000

/-- `calibrate` (30_encoding.md R89). -/
def scriptCalibrate : Request := scriptWr 0x010 0x00000001

/-- `clear` (30_encoding.md R89). -/
def scriptClear : Request := scriptWr 0x010 0x00000002

/-- `ack`: clear DONE (30_encoding.md R89). -/
def scriptAck : Request := scriptWr 0x00C 0x00000002

/-- `ackerr`: clear ERR_BUSY and ERR_CMD (30_encoding.md R89). -/
def scriptAckerr : Request := scriptWr 0x00C 0x0000000C

/-- The read that `wait` repeats (30_encoding.md R89). -/
def scriptWaitRead : Request := scriptRd 0x00C

/-- The test that ends `wait`: BUSY = 0 and DONE = 1 (30_encoding.md R89). -/
def scriptWaitTest (data : Word) : Bool := scriptTest data 0x00000003 0x00000002

/-- `irqon` (30_encoding.md R89). -/
def scriptIrqon : Request := scriptWr 0x008 0x00000001

/-- `irqoff` (30_encoding.md R89). -/
def scriptIrqoff : Request := scriptWr 0x008 0x00000000

/-- `setlen <n>` (30_encoding.md R89). -/
def scriptSetlen (n : Word) : Request := scriptWr 0x014 n

/-- The offset of SAMPLE[j] (10_state.md R40). -/
def sampleOffset (j : Fin 224) : Offset := BitVec.ofNat 12 (0x800 + 4 * j.val)

/-- `sample <j>, <v>` (30_encoding.md R89). -/
def scriptSample (j : Fin 224) (v : Word) : Request := scriptWr (sampleOffset j) v

/-- `zerofill`: 224 writes in ascending order (30_encoding.md R89). -/
def scriptZerofill : List Request := (List.finRange 224).map fun j => scriptSample j 0x00000000

end Sys2Proof.Machine
end

