-- ==== Sys2Proof/Safety.lean ====
section
/-! DEFINITION. What counts as a legal result and a legal state of the block, and the terms claims about steps are
stated in. -/

namespace Sys2Proof.Safety

open Sys2Proof.Machine

/-- The positions of a list of peaks rise strictly (45_thresholds.md R166 (c), 90_conflicts.md C2). -/
def Ascending (P : List EchoPeak) : Prop := P.Pairwise fun p q => p.position < q.position

/-- The roles of a reported list of peaks: the first is the Edge, exactly one is the Liquid, no other is an Edge and
none is Unknown (44_classification.md R150, 45_thresholds.md R166 (d)). -/
def RolesLegal (P : List EchoPeak) : Prop :=
  (peakAt P 0).role = .edge ∧
  P.countP (fun q => q.role == .edge) = 1 ∧
  P.countP (fun q => q.role == .liquid) = 1 ∧
  P.countP (fun q => q.role == .unknown) = 0

/-- The invariants (a) to (d) of every result (45_thresholds.md R166). -/
def ResultLegal (R : ThresholdResult) : Prop :=
  (0 ≤ R.edgePosition → 0 ≤ R.liquidPosition → R.edgePosition < R.liquidPosition) ∧
  R.boundaryNear < R.boundaryFar ∧
  Ascending R.peaks ∧
  (R = sentinel ∨ (2 ≤ R.peaks.length ∧ R.peaks.length ≤ 32 ∧ RolesLegal R.peaks))

/-- What the result registers hold when they report a container: positions, boundaries and thresholds in their ranges,
and the first `peakCount` entries of the table in order, the first the Edge, one other the Liquid, the rest
Interference (10_state.md R32 to R39, 45_thresholds.md R166). -/
structure ReportLegal (r : ResultRegs) : Prop where
  edge_low      : 41 ≤ r.edgePos.toNat
  edge_lt_liq   : r.edgePos.toNat < r.liqPos.toNat
  liq_high      : r.liqPos.toNat ≤ 169
  bnd_order     : r.bndNear.toNat < r.bndFar.toNat
  bnd_high      : r.bndFar.toNat ≤ 169
  thrNear_range : 258 ≤ r.thrNear.toNat ∧ r.thrNear.toNat ≤ 75365
  thrFar_range  : 270 ≤ r.thrFar.toNat ∧ r.thrFar.toNat ≤ 78642
  count_range   : 2 ≤ r.peakCount.toNat ∧ r.peakCount.toNat ≤ 32
  ascending     : ∀ j k : Fin 32, j < k → k.val < r.peakCount.toNat → r.peaks[j].pos.toNat < r.peaks[k].pos.toNat
  edge_first    : r.peaks[0].role = .edge ∧ r.peaks[0].pos = r.edgePos
  one_liquid    : ∃ l : Fin 32, 0 < l ∧ l.val < r.peakCount.toNat ∧ r.peaks[l].role = .liquid ∧
                    r.peaks[l].pos = r.liqPos ∧
                    ∀ k : Fin 32, 0 < k → k.val < r.peakCount.toNat → k ≠ l → r.peaks[k].role = .interference
  unused_zero   : ∀ k : Fin 32, r.peakCount.toNat ≤ k.val → r.peaks[k] = PeakEntry.zero

/-- The invariant of the block: BUSY = 1 ⇒ DONE = 0 (10_state.md R26), LEN is a legal value (R31), and the result
registers hold the sentinel when NO_CONTAINER is set and a legal report when it is not (R34). -/
structure Inv (s : State) : Prop where
  busy_not_done : s.busy = true → s.done = false
  len_legal     : s.len.toNat ≤ 224
  no_container  : s.results.noContainer = true → s.results = ResultRegs.reset
  container     : s.results.noContainer = false → ReportLegal s.results

/-- The request an event puts to the block, if it puts one. -/
def eventRequest : Event → Option Request
  | .request r => some r
  | .access a  => requestOf a
  | .engine    => none
  | .reset     => none

/-- The instruction an event carries, if it carries one. -/
def eventInstr (e : Event) : Option Instr :=
  match eventRequest e with
  | some r =>
    match decodeRequest r with
    | .ok i    => some i
    | .error _ => none
  | none => none

/-- Whether the completion step comes before the event at the head of the inbox, because the host can hold it off no
longer. -/
def engineFirst (s : State) : Prop := engineDue s = true ∧ ∃ e rest, s.inbox = e :: rest ∧ hostEvent e = true

/-- The instruction the next step of `s` runs, if it runs one. -/
def nextInstr (s : State) : Option Instr :=
  match s.inbox with
  | []     => none
  | e :: _ => if engineDue s then none else eventInstr e

/-- Whether the next step of `s` is a reset. -/
def nextIsReset (s : State) : Prop := ∃ rest, s.inbox = .reset :: rest

/-- Whether the next step of `s` is the engine's: the schedule says so, nothing is presented, or the host can hold it off
no longer. -/
def nextIsEngine (s : State) : Prop := s.inbox = [] ∨ (∃ rest, s.inbox = .engine :: rest) ∨ engineFirst s

/-- What is left of the inbox after the engine's turn: the turn itself is gone, if the schedule held it. -/
def afterEngine : List Event → List Event
  | .engine :: rest => rest
  | es              => es

end Sys2Proof.Safety
end

