-- ==== Sys2Proof/Certificates/Slice0/Obligations.lean ====
section
/-! DEFINITION. The statements for the provers. Each docstring names the rule of spec/ a statement formalises, or the
sections it rests on. No statement rests on a free value: those about the sample store hold for every content of it.
Where a statement names the inbox, the order of events is the one the inbox holds (the model's choice, assumption 1), and `engineDue s = false` says that the completion step is not so long
held off that it comes first (the model's choice, assumption 22). -/

open Sys2Proof Sys2Proof.Machine Sys2Proof.Safety

/-! ### Encoding -/

/-- Headers and command words of the spec's own table (95_test_vectors.md 2.1) decode to what that table says. -/
def Obligations.SpecWordsDecode : Prop :=
  decodeRequest ⟨0x2000#15, 0#32⟩ = .ok (.rd32 0x000#12) ∧
  decodeRequest ⟨0x2020#15, 0#32⟩ = .ok (.rd32 0x020#12) ∧
  decodeRequest ⟨0x2FFC#15, 0#32⟩ = .ok (.rd32 0xFFC#12) ∧
  decodeRequest ⟨0x6014#15, 171#32⟩ = .ok (.wr32 0x014#12 171#32) ∧
  decodeRequest ⟨0x6010#15, 0x00000000#32⟩ = .ok .nop ∧
  decodeRequest ⟨0x6010#15, 0x00000001#32⟩ = .ok .calibrate ∧
  decodeRequest ⟨0x6010#15, 0x00000002#32⟩ = .ok .clear ∧
  decodeRequest ⟨0x6010#15, 0x00000101#32⟩ = .ok (.wr32 0x010#12 0x00000101#32) ∧
  decodeRequest ⟨0x1020#15, 0#32⟩ = .error .size16 ∧
  decodeRequest ⟨0x0020#15, 0#32⟩ = .error .size8 ∧
  decodeRequest ⟨0x3020#15, 0#32⟩ = .error .sizeReserved ∧
  decodeRequest ⟨0x2022#15, 0#32⟩ = .error .misaligned

/-- R82: match 0x2000 under mask 0x7003 is RD32, match 0x6000 is WR32, and every other header is an access fault; DATA
does not matter to a read (R81). That a WR32 to CMD with a command word (header 0x6010, data 0, 1 or 2) is read under the
command's own name, `nop`, `calibrate` or `clear`, is the model's choice (assumption 8; 30_encoding.md R84, 40_commands.md
R108). -/
def Obligations.DecoderFollowsMatchAndMask : Prop :=
  ∀ r : Request,
    (r.header &&& 0x7003#15 = 0x2000#15 → decodeRequest r = .ok (.rd32 (r.header.extractLsb' 0 12))) ∧
    (r.header &&& 0x7003#15 = 0x6000#15 → r.header ≠ 0x6010#15 →
      decodeRequest r = .ok (.wr32 (r.header.extractLsb' 0 12) r.data)) ∧
    (r.header = 0x6010#15 →
      decodeRequest r = .ok (if r.data = 0#32 then .nop else if r.data = 1#32 then .calibrate
        else if r.data = 2#32 then .clear else .wr32 0x010#12 r.data)) ∧
    (r.header &&& 0x7003#15 ≠ 0x2000#15 → r.header &&& 0x7003#15 ≠ 0x6000#15 → ∃ e, decodeRequest r = .error e)

/-- Decode and encode agree: every well-formed instruction, with every operand its encoding admits, is read back from
its own request. -/
def Obligations.DecodeOfEncode : Prop :=
  ∀ i : Instr, i.wellFormed = true → decodeRequest (encode i) = .ok i

/-- Each request has one meaning: whatever decodes is well formed, and its encoding is the request it came from (for a
read the data word is no part of the request). -/
def Obligations.EncodeOfDecode : Prop :=
  ∀ (r : Request) (i : Instr), decodeRequest r = .ok i →
    i.wellFormed = true ∧ (encode i).header = r.header ∧ (r.header.getLsbD 14 = true → (encode i).data = r.data)

/-! ### Steps -/

/-- A step runs the decoded instruction (40_commands.md R100): when the first thing presented is a request that decodes
to `i`, the step is `exec i` on the state without that event, in which a run in progress has let one host event more
pass. If the completion step can be held off no longer, it comes first, and the request waits. That what is presented
stands in `inbox`, earliest first, and the count `patience` are the model's choice (assumptions 1 and 22). -/
def Obligations.StepRunsDecodedInstruction : Prop :=
  ∀ (s : State) (r : Request) (rest : List Event) (i : Instr), s.inbox = .request r :: rest →
    decodeRequest r = .ok i →
    (engineDue s = false → step s =
      exec i { s with inbox := rest, patience := if s.busy then s.patience - 1 else s.patience }) ∧
    (engineDue s = true → step s = .next (engineTurn s) ∧ (engineTurn s).inbox = .request r :: rest)

/-- A request whose SIZE is not 10 or whose ADDR[1:0] is not 00 is answered with the error response, with read data 0 if
it is a read, and nothing else changes, whatever BUSY is (60_exceptions.md R201). The event is gone, and a run in progress
has let it pass (the model's choice, assumptions 1, 6 and 22). -/
def Obligations.AccessFaultAnswersError : Prop :=
  ∀ (s : State) (r : Request) (rest : List Event), s.inbox = .request r :: rest → engineDue s = false →
    (r.header.extractLsb' 12 2 ≠ 0b10#2 ∨ r.header.extractLsb' 0 2 ≠ 0b00#2) →
    step s = .next { s with
      inbox := rest
      patience := if s.busy then s.patience - 1 else s.patience
      response := some ⟨.err, if r.header.getLsbD 14 then none else some 0x00000000#32⟩ }

/-- A platform access inside the window BASE + 0x000 to BASE + 0xFFF is the request with that offset; one outside it does
not reach the block, so that nothing but the event itself is gone (20_memory.md R60, R61; assumption 9), though it counts
as one of the host events that a run lets pass (the model's choice, assumption 22). The header is `{W, SIZE, ADDR}`
(30_encoding.md R81). -/
def Obligations.WindowDecidesWhatReachesTheBlock : Prop :=
  (∀ (s : State) (w : Bool) (size : BitVec 2) (off : Offset) (d : Word) (rest : List Event), engineDue s = false →
    s.inbox = .access ⟨w, size, Config.base + off.toNat, d⟩ :: rest →
    step s = step { s with inbox := .request ⟨BitVec.ofBool w ++ size ++ off, d⟩ :: rest }) ∧
  (∀ (s : State) (a : PlatformAccess) (rest : List Event), engineDue s = false → s.inbox = .access a :: rest →
    (a.addr < Config.base ∨ Config.base + 0xFFF < a.addr) →
    step s = .next { s with inbox := rest, patience := if s.busy then s.patience - 1 else s.patience })

/-- No error condition stops the block: every step answers a next state (60_exceptions.md R200). -/
def Obligations.EveryStepAnswersNext : Prop :=
  ∀ s : State, ∃ t, step s = .next t

/-! ### RD32 -/

/-- RD32 of each register that stands alone in the map (10_state.md R22 to R36): the answer is OK with the register's
word, and nothing else changes. -/
def Obligations.ReadFixedRegisters : Prop :=
  ∀ s : State,
    let answers (off : Offset) (w : Word) := exec (.rd32 off) s = .next { s with response := some ⟨.ok, some w⟩ }
    answers 0x000 0x45504443 ∧
    answers 0x004 0x00000007 ∧
    answers 0x008 (if s.ie then 1 else 0) ∧
    answers 0x00C ((if s.busy then 1 else 0) + (if s.done then 2 else 0) + (if s.errBusy then 4 else 0) +
      (if s.errCmd then 8 else 0)) ∧
    answers 0x010 0x00000000 ∧
    answers 0x014 (BitVec.ofNat 32 s.len.toNat) ∧
    answers 0x020 s.results.edgePos ∧
    answers 0x024 s.results.liqPos ∧
    answers 0x028 s.results.thrNear ∧
    answers 0x02C s.results.bndNear ∧
    answers 0x030 s.results.thrFar ∧
    answers 0x034 s.results.bndFar ∧
    answers 0x038 ((if s.results.edgeExt then 1 else 0) + (if s.results.noContainer then 2 else 0)) ∧
    answers 0x03C (BitVec.ofNat 32 s.results.peakCount.toNat)

/-- RD32 of the PEAK table (R37): entry k is at 0x400 + 32·k, with POS, AMP, LEFT, RIGHT, PROM and ROLE (coded by R35)
in that order and two reserved words that read 0. -/
def Obligations.ReadPeakTable : Prop :=
  ∀ (s : State) (k : Fin 32),
    let e := s.results.peaks[k]
    let answers (o : Nat) (w : Word) := exec (.rd32 (BitVec.ofNat 12 (0x400 + 32 * k.val + o))) s =
      .next { s with response := some ⟨.ok, some w⟩ }
    answers 0x00 e.pos ∧
    answers 0x04 (BitVec.ofNat 32 e.amp.toNat) ∧
    answers 0x08 e.left ∧
    answers 0x0C e.right ∧
    answers 0x10 (BitVec.ofNat 32 e.prom.toNat) ∧
    answers 0x14 (match e.role with | .unknown => 0 | .edge => 1 | .liquid => 2 | .interference => 3) ∧
    answers 0x18 0 ∧
    answers 0x1C 0

/-- RD32 of SAMPLE[j] at 0x800 + 4·j answers the sample in bits[15:0] and 0 above (10_state.md R40). -/
def Obligations.ReadSampleStore : Prop :=
  ∀ (s : State) (j : Fin 224),
    exec (.rd32 (BitVec.ofNat 12 (0x800 + 4 * j.val))) s =
      .next { s with response := some ⟨.ok, some (BitVec.ofNat 32 s.samples[j].toNat)⟩ }

/-- A reserved offset reads 0 (10_state.md R38, with the reserved ranges of R23). -/
def Obligations.ReservedOffsetsReadZero : Prop :=
  ∀ (s : State) (off : Offset), off.toNat % 4 = 0 →
    (off.toNat = 0x018 ∨ off.toNat = 0x01C ∨ (0x040 ≤ off.toNat ∧ off.toNat ≤ 0x3FC) ∨ 0xB80 ≤ off.toNat) →
    exec (.rd32 off) s = .next { s with response := some ⟨.ok, some 0x00000000#32⟩ }

/-! ### WR32 -/

/-- R107: a WR32 to a read-only or reserved offset changes no state; it is answered OK. -/
def Obligations.WriteToReadOnlyIsIgnored : Prop :=
  ∀ (s : State) (off : Offset) (d : Word), off.toNat % 4 = 0 →
    (off.toNat = 0x000 ∨ off.toNat = 0x004 ∨ off.toNat = 0x018 ∨ off.toNat = 0x01C ∨
      (0x020 ≤ off.toNat ∧ off.toNat ≤ 0x03C) ∨ (0x040 ≤ off.toNat ∧ off.toNat ≤ 0x3FC) ∨
      (0x400 ≤ off.toNat ∧ off.toNat ≤ 0x7FC) ∨ 0xB80 ≤ off.toNat) →
    exec (.wr32 off d) s = .next { s with response := some ⟨.ok, none⟩ }

/-- R103: WR32 CTRL stores d[0] in IE and changes nothing else, whatever BUSY is; the irq level follows at once. -/
def Obligations.WriteCtrlSetsIrqEnable : Prop :=
  ∀ (s : State) (d : Word),
    exec (.wr32 0x008 d) s = .next { s with ie := d.getLsbD 0, response := some ⟨.ok, none⟩ } ∧
    irq { s with ie := d.getLsbD 0, response := some ⟨.ok, none⟩ } = (d.getLsbD 0 && s.done)

/-- R104: WR32 STATUS clears DONE, ERR_BUSY and ERR_CMD where bits 1, 2 and 3 are written 1, leaves each unchanged where
its bit is written 0, and changes nothing else, BUSY and the result registers included. -/
def Obligations.WriteStatusAcknowledges : Prop :=
  ∀ (s : State) (d : Word),
    exec (.wr32 0x00C d) s = .next { s with
      done     := if d.getLsbD 1 then false else s.done
      errBusy  := if d.getLsbD 2 then false else s.errBusy
      errCmd   := if d.getLsbD 3 then false else s.errCmd
      response := some ⟨.ok, none⟩ }

/-- R105: WR32 LEN stores min(d[7:0], 224), or sets ERR_BUSY and nothing else while BUSY = 1. -/
def Obligations.WriteLenClampsOrIsRefused : Prop :=
  ∀ (s : State) (d : Word),
    (s.busy = true → exec (.wr32 0x014 d) s = .next { s with errBusy := true, response := some ⟨.ok, none⟩ }) ∧
    (s.busy = false → exec (.wr32 0x014 d) s =
      .next { s with len := BitVec.ofNat 8 (min (d.toNat % 256) 224), response := some ⟨.ok, none⟩ })

/-- R106: WR32 at 0x800 + 4·j stores d[15:0] in S[j], or sets ERR_BUSY and nothing else while BUSY = 1. -/
def Obligations.WriteSampleStoresOrIsRefused : Prop :=
  ∀ (s : State) (j : Fin 224) (d : Word),
    let off : Offset := BitVec.ofNat 12 (0x800 + 4 * j.val)
    (s.busy = true → exec (.wr32 off d) s = .next { s with errBusy := true, response := some ⟨.ok, none⟩ }) ∧
    (s.busy = false → exec (.wr32 off d) s =
      .next { s with samples := s.samples.set j (BitVec.ofNat 16 (d.toNat % 65536)), response := some ⟨.ok, none⟩ })

/-- The frame of a sample write, byte by byte through the little-endian view of the window (20_memory.md R63,
40_commands.md R106): outside the four bytes at 0x800 + 4·j every byte of the window reads as before, and those four are
d[7:0], d[15:8], 0 and 0. A refused write changes no byte outside STATUS. -/
def Obligations.SampleWriteChangesItsBytesOnly : Prop :=
  ∀ (s t : State) (j : Fin 224) (d : Word), exec (.wr32 (sampleOffset j) d) s = .next t →
    (s.busy = false →
      (∀ a : Nat, a < 0x1000 → (a < (sampleOffset j).toNat ∨ (sampleOffset j).toNat + 4 ≤ a) →
        readByte t a = readByte s a) ∧
      readByte t (sampleOffset j).toNat = d.extractLsb' 0 8 ∧
      readByte t ((sampleOffset j).toNat + 1) = d.extractLsb' 8 8 ∧
      readByte t ((sampleOffset j).toNat + 2) = 0 ∧
      readByte t ((sampleOffset j).toNat + 3) = 0) ∧
    (s.busy = true → ∀ a : Nat, a < 0x1000 → (a < 0x00C ∨ 0x010 ≤ a) → readByte t a = readByte s a)

/-- R108, R114: WR32 CMD runs the command its word names, and any other word sets ERR_CMD and nothing else, whatever BUSY
is; ERR_BUSY is not also set. -/
def Obligations.WriteCmdDispatches : Prop :=
  ∀ (s : State) (d : Word),
    exec (.wr32 0x010 d) s =
      if d = 0x00000000#32 then exec .nop s
      else if d = 0x00000001#32 then exec .calibrate s
      else if d = 0x00000002#32 then exec .clear s
      else .next { s with errCmd := true, response := some ⟨.ok, none⟩ }

/-- A term with a misaligned offset is no RD32 and no WR32: it answers the AccessFault its request would get, and changes
nothing else (20_memory.md R62; that `exec` gives such a term this meaning is the model's choice, assumption 18). -/
def Obligations.MisalignedTermsAnswerAccessFault : Prop :=
  ∀ (s : State) (off : Offset) (d : Word), off.toNat % 4 ≠ 0 →
    exec (.rd32 off) s = .next { s with response := some ⟨.err, some 0x00000000#32⟩ } ∧
    exec (.wr32 off d) s = .next { s with response := some ⟨.err, none⟩ }

/-! ### Commands -/

/-- R109: NOP changes no state, even while BUSY = 1. -/
def Obligations.NopChangesNothing : Prop :=
  ∀ s : State, exec .nop s = .next { s with response := some ⟨.ok, none⟩ }

/-- R110: CALIBRATE sets BUSY and clears DONE, and while BUSY = 1 sets ERR_BUSY and nothing else. -/
def Obligations.CalibrateStartsOrIsRefused : Prop :=
  ∀ s : State,
    (s.busy = false → exec .calibrate s =
      .next { s with busy := true, done := false, response := some ⟨.ok, none⟩ }) ∧
    (s.busy = true → exec .calibrate s = .next { s with errBusy := true, response := some ⟨.ok, none⟩ })

/-- R111: CLEAR writes the sentinel to the result registers and clears DONE, and while BUSY = 1 sets ERR_BUSY and nothing
else. -/
def Obligations.ClearWritesSentinelOrIsRefused : Prop :=
  ∀ s : State,
    (s.busy = false → exec .clear s = .next { s with
      done := false
      results := { edgePos := 0xFFFFFFFF, liqPos := 0xFFFFFFFF, thrNear := 400, bndNear := 60, thrFar := 250,
                   bndFar := 152, edgeExt := false, noContainer := true, peakCount := 0,
                   peaks := Vector.replicate 32 ⟨0, 0, 0, 0, 0, .unknown⟩ }
      response := some ⟨.ok, none⟩ }) ∧
    (s.busy = true → exec .clear s = .next { s with errBusy := true, response := some ⟨.ok, none⟩ })

/-! ### The engine and the flags -/

/-- The completion step (40_commands.md R112), enabled exactly when BUSY = 1 (R100): it writes the result of the stored
profile, sets DONE, clears BUSY and changes nothing else of the block. It is every turn of the engine: one the schedule
holds, one that comes because nothing is presented, and one that can be held off no longer. The model's own choices: that
it reads the store as it stands (assumption 14), that a turn while BUSY = 0 changes nothing (assumption 16), when the turns
come (assumptions 1, 2 and 22), and that a new latency is drawn for the next run (assumption 22). -/
def Obligations.CompletionWritesTheResult : Prop :=
  ∀ s : State, nextIsEngine s →
    (s.busy = true → step s = .next { s with
      inbox := afterEngine s.inbox, busy := false, done := true
      results := resultRegs (calibrate s.samples s.len.toNat)
      patience := Config.latency (s.runCount + 1), runCount := s.runCount + 1 }) ∧
    (s.busy = false → step s = .next { s with inbox := afterEngine s.inbox })

/-- What sets and clears BUSY and DONE, and nothing else does (10_state.md R25): BUSY is set by an accepted CALIBRATE and
cleared by completion or reset; DONE is set by completion and cleared by a 1 in bit 1 of a STATUS write, an accepted
CALIBRATE or CLEAR, or reset. The instruction is that of the next event, whether it comes as a request or as a bus
access. A WR32 of the command word to CMD is decoded as the command. -/
def Obligations.BusyAndDoneChangeOnlyAsTabulated : Prop :=
  ∀ s t : State, step s = .next t →
    (s.busy = false → t.busy = true → nextInstr s = some .calibrate) ∧
    (s.busy = true → t.busy = false → nextIsEngine s ∨ nextIsReset s) ∧
    (s.done = false → t.done = true → s.busy = true ∧ nextIsEngine s) ∧
    (s.done = true → t.done = false → nextIsReset s ∨
      (s.busy = false ∧ (nextInstr s = some .calibrate ∨ nextInstr s = some .clear)) ∨
      ∃ d : Word, d.getLsbD 1 = true ∧ nextInstr s = some (.wr32 0x00C d))

/-- The error bits are sticky and have exactly the causes the rules name (10_state.md R28, R29, 60_exceptions.md R202,
R203): ERR_BUSY is set only by an access of R203 while BUSY = 1, ERR_CMD only by an illegal command word, and each is
cleared only by a 1 in its bit of a STATUS write or by reset. -/
def Obligations.ErrorBitsChangeOnlyAsTabulated : Prop :=
  ∀ s t : State, step s = .next t →
    (s.errBusy = false → t.errBusy = true → s.busy = true ∧
      (nextInstr s = some .calibrate ∨ nextInstr s = some .clear ∨
        (∃ d : Word, nextInstr s = some (.wr32 0x014 d)) ∨
        ∃ (j : Fin 224) (d : Word), nextInstr s = some (.wr32 (sampleOffset j) d))) ∧
    (s.errBusy = true → t.errBusy = false → nextIsReset s ∨
      ∃ d : Word, d.getLsbD 2 = true ∧ nextInstr s = some (.wr32 0x00C d)) ∧
    (s.errCmd = false → t.errCmd = true →
      ∃ d : Word, d ≠ 0 ∧ d ≠ 1 ∧ d ≠ 2 ∧ nextInstr s = some (.wr32 0x010 d)) ∧
    (s.errCmd = true → t.errCmd = false → nextIsReset s ∨
      ∃ d : Word, d.getLsbD 3 = true ∧ nextInstr s = some (.wr32 0x00C d))

/-- One request reports at most one error condition (60_exceptions.md R205): an error response sets no STATUS bit, and a
step never sets both bits. -/
def Obligations.OneErrorPerRequest : Prop :=
  ∀ (s t : State) (r : Request) (rest : List Event), s.inbox = .request r :: rest → step s = .next t →
    ¬ ((s.errBusy = false ∧ t.errBusy = true) ∧ (s.errCmd = false ∧ t.errCmd = true)) ∧
    ((∃ d, t.response = some ⟨.err, d⟩) → t.errBusy = s.errBusy ∧ t.errCmd = s.errCmd)

/-- The result registers and the PEAK table change only by a completion, an accepted CLEAR or a reset (10_state.md R43,
70_reset_and_hazards.md R224). -/
def Obligations.ResultsChangeOnlyByCompletionClearOrReset : Prop :=
  ∀ s t : State, step s = .next t → t.results ≠ s.results →
    (s.busy = true ∧ nextIsEngine s) ∨ (s.busy = false ∧ nextInstr s = some .clear) ∨ nextIsReset s

/-- While BUSY = 1, no step but a reset changes the sample store or LEN (20_memory.md R69, 70_reset_and_hazards.md
R225). -/
def Obligations.InputsAreFrozenWhileBusy : Prop :=
  ∀ s t : State, s.busy = true → ¬ nextIsReset s → step s = .next t → t.samples = s.samples ∧ t.len = s.len

/-- irq falls only as 60_exceptions.md R208 lists: IE written 0, DONE cleared by a STATUS write, an accepted CALIBRATE or
CLEAR, or reset; and it rises only by IE written 1 or by a completion. -/
def Obligations.IrqRisesAndFallsOnlyAsListed : Prop :=
  ∀ s t : State, step s = .next t →
    (irq s = true → irq t = false → nextIsReset s ∨
      (∃ d : Word, d.getLsbD 0 = false ∧ nextInstr s = some (.wr32 0x008 d)) ∨
      (∃ d : Word, d.getLsbD 1 = true ∧ nextInstr s = some (.wr32 0x00C d)) ∨
      (s.busy = false ∧ (nextInstr s = some .calibrate ∨ nextInstr s = some .clear))) ∧
    (irq s = false → irq t = true →
      (∃ d : Word, d.getLsbD 0 = true ∧ nextInstr s = some (.wr32 0x008 d)) ∨ (s.busy = true ∧ nextIsEngine s))

/-! ### Reset -/

/-- The reset action (70_reset_and_hazards.md R220): every register but the sample store at its tabulated value, irq 0,
no run in progress. Of the sample store it says nothing (R228). That a reset is one step, and that what is still to
arrive stays to arrive, is the model's choice (assumption 12). -/
def Obligations.ResetGivesTabulatedValues : Prop :=
  ∀ (s : State) (rest : List Event), s.inbox = .reset :: rest →
    ∃ t, step s = .next t ∧
      t.ie = false ∧ t.busy = false ∧ t.done = false ∧ t.errBusy = false ∧ t.errCmd = false ∧ t.len = 0 ∧
      readWord t 0x000 = 0x45504443 ∧ readWord t 0x004 = 0x00000007 ∧
      t.results.edgePos = 0xFFFFFFFF ∧ t.results.liqPos = 0xFFFFFFFF ∧
      t.results.thrNear = 0x190 ∧ t.results.bndNear = 0x3C ∧ t.results.thrFar = 0xFA ∧ t.results.bndFar = 0x98 ∧
      readWord t 0x038 = 0x2 ∧ t.results.peakCount = 0 ∧
      (∀ k : Fin 32, t.results.peaks[k] = ⟨0, 0, 0, 0, 0, .unknown⟩) ∧
      irq t = false ∧ t.inbox = rest

/-- A reset ends a running computation and its completion step never fires (70_reset_and_hazards.md R221): whatever comes
after the reset, short of a CALIBRATE and of another reset, BUSY and DONE stay 0 and the result registers stay at the
sentinel, for as many steps as those events take, and for ever if nothing else is presented. That a reset is one event and
the inbox stays (assumption 12), and that the engine's turns while BUSY = 0 change nothing (assumption 16), is the model's
choice. -/
def Obligations.ResetAbortsTheRun : Prop :=
  ∀ (s : State) (es rest : List Event), s.busy = true → s.inbox = .reset :: (es ++ rest) →
    (∀ e ∈ es, e ≠ .reset ∧ eventInstr e ≠ some .calibrate) →
    ∀ k : Nat, (k ≤ es.length ∨ rest = []) →
      ∃ t, Host.Core.run core (k + 1) s = .next t ∧ t.busy = false ∧ t.done = false ∧ t.results = resultRegs sentinel

/-! ### The stages of Calibrate -/

/-- R120: a profile with LEN < 171 gives the no-container sentinel exactly, whatever the samples. -/
def Obligations.ShortProfileGivesSentinel : Prop :=
  ∀ (S : Vector Sample 224) (len : Nat), len < 171 →
    calibrate S len =
      { edgePosition := -1, liquidPosition := -1, thresholdNear := 400, boundaryNear := 60, thresholdFar := 250,
        boundaryFar := 152, edgeExtended := false, peaks := [] }

/-- Only the samples at raw indices 40..170 matter, and LEN only through the test LEN ≥ 171 (41_window_and_smoothing.md
R120, R121 corner cases). -/
def Obligations.SamplesOutsideTheWindowNeverMatter : Prop :=
  ∀ (S S' : Vector Sample 224) (len len' : Nat), 171 ≤ len → 171 ≤ len' →
    (∀ j : Fin 224, 40 ≤ j.val → j.val ≤ 170 → S[j] = S'[j]) → calibrate S len = calibrate S' len'

/-- R122: each smoothed sample is the truncated mean of the window samples at most 2 away, cut at the window's ends. -/
def Obligations.SmoothIsTruncatedMean : Prop :=
  ∀ (w : List Nat) (i : Nat), w.length = 131 → i < 131 →
    (smooth w).length = 131 ∧
    sampleAt (smooth w) i =
      (∑ k ∈ Finset.Icc (i - 2) (min 130 (i + 2)), sampleAt w k) / (min 130 (i + 2) - (i - 2) + 1)

/-- A smoothed sample is at most the largest sample of the window (41_window_and_smoothing.md R122), so 16-bit samples
give smoothed values in 0..65535 (00_scope.md R9). -/
def Obligations.SmoothStaysBelowTheMaximum : Prop :=
  ∀ (w : List Nat) (m i : Nat), w.length = 131 → (∀ k, k < 131 → sampleAt w k ≤ m) → i < 131 →
    sampleAt (smooth w) i ≤ m

/-- Detection keeps exactly the first 32 indices of 1..129 that pass the peak test, in ascending order, each with its
smoothed amplitude, and no role yet (42_peak_detection.md R130, R131, R135, R136). -/
def Obligations.DetectKeepsTheFirst32Candidates : Prop :=
  ∀ s : List Nat,
    (detect s).map (fun p => p.position) =
      ((List.range' 1 129).filter fun i => decide (sampleAt s (i - 1) < sampleAt s i ∧
        sampleAt s (i + 1) ≤ sampleAt s i ∧ 225 ≤ sampleAt s i)).take 32 ∧
    ∀ p ∈ detect s, p.amplitude = sampleAt s p.position ∧ p.leftBound = leftBound s p.position ∧
      p.rightBound = rightBound s p.position ∧ p.role = .unknown

/-- Two candidates are at least 2 apart (42_peak_detection.md R131). -/
def Obligations.CandidatesAreAtLeastTwoApart : Prop :=
  ∀ s : List Nat, (detect s).Pairwise fun p q => p.position + 2 ≤ q.position

/-- R132: the left bound is reached by samples that do not rise and exceed 90, and the walk stops at index 0 or where the
next sample rises or is at most 90. -/
def Obligations.LeftBoundIsMaximalWalk : Prop :=
  ∀ (s : List Nat) (i : Nat),
    leftBound s i ≤ i ∧
    (∀ m, leftBound s i ≤ m → m < i → sampleAt s m ≤ sampleAt s (m + 1) ∧ 90 < sampleAt s m) ∧
    (leftBound s i = 0 ∨ sampleAt s (leftBound s i) < sampleAt s (leftBound s i - 1) ∨
      sampleAt s (leftBound s i - 1) ≤ 90)

/-- R133: the right bound by the symmetric walk, which stops at index 130. -/
def Obligations.RightBoundIsMaximalWalk : Prop :=
  ∀ (s : List Nat) (i : Nat), i ≤ 130 →
    i ≤ rightBound s i ∧ rightBound s i ≤ 130 ∧
    (∀ m, i ≤ m → m < rightBound s i → sampleAt s (m + 1) ≤ sampleAt s m ∧ 90 < sampleAt s (m + 1)) ∧
    (rightBound s i = 130 ∨ sampleAt s (rightBound s i) < sampleAt s (rightBound s i + 1) ∨
      sampleAt s (rightBound s i + 1) ≤ 90)

/-- A candidate's prominence is its amplitude less the smallest sample of its two valley windows, the 3 samples ending at
the left bound and the 3 starting at the right bound, clipped to the window, with no amount cut off (42_peak_detection.md
R134). -/
def Obligations.ProminenceIsHeightAboveLowerValley : Prop :=
  ∀ s : List Nat, s.length = 131 → ∀ p ∈ detect s,
    let inValley (k : Nat) :=
      (p.leftBound ≤ k + 2 ∧ k ≤ p.leftBound) ∨ (p.rightBound ≤ k ∧ k ≤ p.rightBound + 2 ∧ k ≤ 130)
    (∃ k, inValley k ∧ p.amplitude = p.prominence + sampleAt s k) ∧
    ∀ k, inValley k → p.amplitude ≤ p.prominence + sampleAt s k

/-- R142, R143: two candidates merge exactly when the second is within 3 samples and the smaller amplitude exceeds 70% of
the larger, and the cluster takes the taller one's position and amplitude, the union of the bounds and the larger
prominence, keeping its own position on a tie. -/
def Obligations.MergeTestAndAbsorb : Prop :=
  ∀ cl c : EchoPeak,
    (mergeable cl c = true ↔ (c.position : Int) - cl.position ≤ 3 ∧
      max cl.amplitude c.amplitude * 7 < min cl.amplitude c.amplitude * 10) ∧
    (absorb cl c).amplitude = max cl.amplitude c.amplitude ∧
    (absorb cl c).position = (if cl.amplitude < c.amplitude then c.position else cl.position) ∧
    (absorb cl c).leftBound = min cl.leftBound c.leftBound ∧
    (absorb cl c).rightBound = max cl.rightBound c.rightBound ∧
    (absorb cl c).prominence = max cl.prominence c.prominence ∧
    (absorb cl c).role = .unknown

/-- R145: the merged list has strictly increasing positions, at most 32 members, and every member has amplitude ≥ 225,
prominence ≥ 60 and role Unknown. -/
def Obligations.MergedPeaksProperties : Prop :=
  ∀ s : List Nat,
    Ascending (merge (detect s)) ∧ (merge (detect s)).length ≤ 32 ∧
    ∀ p ∈ merge (detect s), 225 ≤ p.amplitude ∧ 60 ≤ p.prominence ∧ p.role = .unknown

/-- The merge walk (43_merging.md R141, R144), on a list in ascending position order: a candidate that is mergeable with
the running cluster is absorbed into it, one that is not ends it, and a finished cluster is in the result exactly when its
prominence is at least 60. So every merged peak has the position and amplitude of one candidate of the detection, and the
prominence of one (R143, R145: the prominence is not recomputed). -/
def Obligations.ClustersRepresentCandidates : Prop :=
  merge [] = [] ∧
  (∀ c : EchoPeak, merge [c] = if 60 ≤ c.prominence then [c] else []) ∧
  (∀ (c d : EchoPeak) (C : List EchoPeak), Ascending (c :: d :: C) →
    (mergeable c d = true → merge (c :: d :: C) = merge (absorb c d :: C)) ∧
    (mergeable c d = false → 60 ≤ c.prominence → merge (c :: d :: C) = c :: merge (d :: C)) ∧
    (mergeable c d = false → c.prominence < 60 → merge (c :: d :: C) = merge (d :: C)) ∧
    Ascending (absorb c d :: C) ∧ Ascending (d :: C)) ∧
  ∀ s : List Nat, Ascending (detect s) ∧ ∀ p ∈ merge (detect s),
    (∃ c ∈ detect s, p.position = c.position ∧ p.amplitude = c.amplitude) ∧
    ∃ c ∈ detect s, p.prominence = c.prominence

/-- R150: on two or more peaks, the first is the Edge, the peak at `li`, 1 ≤ li < n, is the Liquid, and every other one
is Interference; no other field of a record changes. -/
def Obligations.ClassifyGivesEachPeakOneRole : Prop :=
  ∀ P : List EchoPeak, 2 ≤ P.length →
    1 ≤ liquidIndex P ∧ liquidIndex P < P.length ∧ (classify P).length = P.length ∧
    ∀ k, k < P.length →
      peakAt (classify P) k = { peakAt P k with
        role := if k = 0 then .edge else if k = liquidIndex P then .liquid else .interference }

/-- R151, R153: of two peaks the later is the Liquid. Of three or more it is the first of the highest peaks strictly
beyond e + (131 − e)·40/100, and the last peak if none lies beyond that limit. -/
def Obligations.LiquidIsHighestBeyondLimit : Prop :=
  ∀ P : List EchoPeak,
    (P.length = 2 → liquidIndex P = 1) ∧
    (3 ≤ P.length → (peakAt P 0).position ≤ 130 →
      let lim := (peakAt P 0).position + (131 - (peakAt P 0).position) * 40 / 100
      let beyond (k : Nat) := 1 ≤ k ∧ k < P.length ∧ lim < (peakAt P k).position
      ((∃ k, beyond k) → beyond (liquidIndex P) ∧
        ∀ k, beyond k → (peakAt P k).amplitude ≤ (peakAt P (liquidIndex P)).amplitude ∧
          (k < liquidIndex P → (peakAt P k).amplitude < (peakAt P (liquidIndex P)).amplitude)) ∧
      ((¬ ∃ k, beyond k) → liquidIndex P = P.length - 1))

/-- Edge-cluster extension (44_classification.md R155 to R157): with `st` the first of the strongest Interference peaks
strictly between Edge and Liquid, at least as strong as the Edge, the cluster takes st's right bound and amplitude and F
is the Interference peaks to the right of st; if there is none between, or the strongest is weaker, the cluster is the
Edge's own and F is every Interference peak. -/
def Obligations.EdgeClusterExtends : Prop :=
  ∀ (P : List EchoPeak) (li : Nat),
    let E := peakAt P 0
    let L := peakAt P li
    let between (q : EchoPeak) := q ∈ P ∧ q.role = .interference ∧ E.position < q.position ∧ q.position < L.position
    (∀ st, Ascending P → between st → E.amplitude ≤ st.amplitude → (∀ q, between q → q.amplitude ≤ st.amplitude) →
      (∀ q, between q → q.amplitude = st.amplitude → st.position ≤ q.position) →
      (edgeCluster P li).right = st.rightBound ∧ (edgeCluster P li).amplitude = st.amplitude ∧
      (edgeCluster P li).extended = true ∧
      (edgeCluster P li).far = P.filter fun q => decide (q.role = .interference ∧ st.position < q.position)) ∧
    ((∀ q, between q → q.amplitude < E.amplitude) →
      (edgeCluster P li).right = E.rightBound ∧ (edgeCluster P li).amplitude = E.amplitude ∧
      (edgeCluster P li).extended = false ∧
      (edgeCluster P li).far = P.filter fun q => decide (q.role = .interference))

/-- The far boundary (45_thresholds.md R162), for a Liquid position L ≤ 129: the first position from the greatest right
bound on that starts three smoothed samples below 250, all of them before L; L − 2 if there is none or F is empty. -/
def Obligations.FarBoundaryIsFirstQuietRun : Prop :=
  ∀ (s : List Nat) (p L : Nat), L ≤ 129 →
    let quiet (q : Nat) := q + 2 < L ∧ sampleAt s q < 250 ∧ sampleAt s (q + 1) < 250 ∧ sampleAt s (q + 2) < 250
    (∀ q, p ≤ q → quiet q → (∀ q', p ≤ q' → q' < q → ¬ quiet q') → farBoundary s (some p) L = q) ∧
    ((∀ q, p ≤ q → ¬ quiet q) → farBoundary s (some p) L = (L : Int) - 2) ∧
    farBoundary s none L = (L : Int) - 2

/-- R161, R163: the near threshold is ca + ca·3/20 and the far threshold a + (2a + 5)/10, with truncating division, a
being 250 for an empty far set; the second quotient is 0.2·a rounded half up. -/
def Obligations.ThresholdScalings : Prop :=
  (∀ ca : Nat, nearThreshold ca = ca + ca * 3 / 20) ∧
  (∀ a : Nat, farThreshold (some a) = a + (a * 2 + 5) / 10) ∧
  farThreshold none = 300 ∧
  (∀ a : Nat, 2 * a ≤ 10 * ((a * 2 + 5) / 10) + 5 ∧ 10 * ((a * 2 + 5) / 10) ≤ 2 * a + 5)

/-- R164: after the ordering step the near boundary is strictly below the far one; different boundaries are kept or
swapped, and of two equal ones the far one is incremented. -/
def Obligations.OrderingGuarantee : Prop :=
  ∀ bn bf : Int,
    (orderBoundaries bn bf).1 < (orderBoundaries bn bf).2 ∧
    (bn < bf → orderBoundaries bn bf = (bn, bf)) ∧
    (bf < bn → orderBoundaries bn bf = (bf, bn)) ∧
    (bn = bf → orderBoundaries bn bf = (bn, bf + 1))

/-- The fields of a result that is not the sentinel, each by the rule that gives it (40_commands.md R113, 45_thresholds.md
R160 to R165), from the classified peaks, the Liquid index and the edge cluster. The far search starts at the right bound
of a member of the far set F than which no member has a greater one (R162), and the far threshold comes from the amplitude
of a member than which no member has a greater one (R163). -/
def Obligations.ResultFieldsFollowThePipeline : Prop :=
  ∀ (S : Vector Sample 224) (len : Nat), 171 ≤ len →
    let s := smooth (extractWindow S)
    let M := merge (detect s)
    let P := classify M
    let li := liquidIndex M
    let c := edgeCluster P li
    let L := (peakAt P li).position
    let R := calibrate S len
    let bn : Int := min ((c.right : Int) + 3) ((L : Int) - 3) + 40
    2 ≤ M.length →
      R.edgePosition = (peakAt P 0).position + 40 ∧
      R.liquidPosition = L + 40 ∧
      R.thresholdNear = (c.amplitude + c.amplitude * 3 / 20 : Nat) ∧
      (c.far = [] →
        (R.boundaryNear, R.boundaryFar) = orderBoundaries bn (farBoundary s none L + 40) ∧
        R.thresholdFar = farThreshold none) ∧
      (c.far ≠ [] →
        (∃ q ∈ c.far, (∀ p ∈ c.far, p.rightBound ≤ q.rightBound) ∧
          (R.boundaryNear, R.boundaryFar) = orderBoundaries bn (farBoundary s (some q.rightBound) L + 40)) ∧
        ∃ q ∈ c.far, (∀ p ∈ c.far, p.amplitude ≤ q.amplitude) ∧ R.thresholdFar = farThreshold (some q.amplitude)) ∧
      R.edgeExtended = c.extended ∧
      R.peaks = P.map fun q => { q with
        position := q.position + 40, leftBound := q.leftBound + 40, rightBound := q.rightBound + 40 }

/-! ### Results, invariants and runs -/

/-- A result is the sentinel exactly when LEN < 171 or fewer than 2 peaks survive merging, and NO_CONTAINER says so
(41_window_and_smoothing.md R120, 43_merging.md R146, 60_exceptions.md R206, 10_state.md R34). -/
def Obligations.NoContainerExactlyWhenTooFewPeaks : Prop :=
  ∀ (S : Vector Sample 224) (len : Nat),
    (calibrate S len = sentinel ↔ len < 171 ∨ (merge (detect (smooth (extractWindow S)))).length < 2) ∧
    ((resultRegs (calibrate S len)).noContainer = true ↔ calibrate S len = sentinel)

/-- R166: every result of Calibrate satisfies (a) edge before liquid, (b) boundaryNear < boundaryFar, (c) peaks in
strictly ascending order, (d) the sentinel, or 2..32 peaks with exactly one Edge, the first, and exactly one Liquid. -/
def Obligations.EveryResultIsLegal : Prop :=
  ∀ (S : Vector Sample 224) (len : Nat), ResultLegal (calibrate S len)

/-- The registers hold every field of a result exactly, no value wrapping (00_scope.md R8, R9, 10_state.md R32 to R39):
signed words for the positions, thresholds and boundaries, the flags, the count, the words of each reported peak, and
zero words in the entries beyond. -/
def Obligations.RegistersHoldTheResultExactly : Prop :=
  ∀ (S : Vector Sample 224) (len : Nat),
    let R := calibrate S len
    let r := resultRegs R
    r.edgePos.toInt = R.edgePosition ∧ r.liqPos.toInt = R.liquidPosition ∧
    r.thrNear.toInt = R.thresholdNear ∧ r.bndNear.toInt = R.boundaryNear ∧
    r.thrFar.toInt = R.thresholdFar ∧ r.bndFar.toInt = R.boundaryFar ∧
    r.edgeExt = R.edgeExtended ∧ (r.noContainer = true ↔ R.edgePosition < 0 ∨ R.liquidPosition < 0) ∧
    r.peakCount.toNat = R.peaks.length ∧
    ∀ k : Fin 32,
      (k.val < R.peaks.length →
        r.peaks[k].pos.toNat = (peakAt R.peaks k).position ∧ r.peaks[k].amp.toNat = (peakAt R.peaks k).amplitude ∧
        r.peaks[k].left.toNat = (peakAt R.peaks k).leftBound ∧ r.peaks[k].right.toNat = (peakAt R.peaks k).rightBound ∧
        r.peaks[k].prom.toNat = (peakAt R.peaks k).prominence ∧ r.peaks[k].role = (peakAt R.peaks k).role) ∧
      (R.peaks.length ≤ k.val → r.peaks[k] = ⟨0, 0, 0, 0, 0, .unknown⟩)

/-- The state after reset meets the invariant. -/
def Obligations.ResetMeetsInv : Prop :=
  Inv State.reset

/-- Every step keeps the invariant, from every state that meets it (10_state.md R26, R31, R34, 45_thresholds.md R166). -/
def Obligations.EveryStepKeepsInv : Prop :=
  ∀ s t : State, Inv s → step s = .next t → Inv t

/-- The result does not depend on the latency or on what the host does meanwhile (20_memory.md R69,
70_reset_and_hazards.md R224, R229). Under every environment, short of reset, the run that is in progress has a first
completion step; before it BUSY is 1 and the result registers are the old ones, and after it they hold the result of the
sample store and LEN as they stood when the run was accepted. If the schedule puts the completion step after no more host
events than the engine lets pass, it comes just there. That the completion step comes whatever the host does is R230's
word; just where it comes is the model's choice: the order of events is the inbox's (assumption 1), the engine moves when
nothing is presented (assumption 2), and the open latency is the count `patience` (assumption 22). That the store is read
as it stands is DEDUCED (assumption 14). -/
def Obligations.ResultIsThatOfTheSnapshot : Prop :=
  (∀ (s : State) (env : Environment), s.busy = true → (∀ k u, ∀ e ∈ env k u, e ≠ .reset) →
    ∃ n t, drive env (n + 1) s = .next t ∧ t.busy = false ∧ t.done = true ∧ t.samples = s.samples ∧ t.len = s.len ∧
      t.results = resultRegs (calibrate s.samples s.len.toNat) ∧
      ∀ k, k ≤ n → ∃ u, drive env k s = .next u ∧ u.busy = true ∧ (s.done = false → u.done = false) ∧
        u.results = s.results) ∧
  (∀ (s : State) (es rest : List Event), s.busy = true → s.inbox = es ++ .engine :: rest →
    (∀ e ∈ es, hostEvent e = true) → es.length ≤ s.patience →
    ∃ t, Host.Core.run core (es.length + 1) s = .next t ∧ t.inbox = rest ∧ t.busy = false ∧ t.done = true ∧
      t.samples = s.samples ∧ t.len = s.len ∧ t.results = resultRegs (calibrate s.samples s.len.toNat))

/-- A run completes whatever the host does, short of reset (70_reset_and_hazards.md R230): under every environment, one
that never stops presenting requests among them, at the latest when `patience` more events have been taken, and so a host
that polls as `wait` does reads BUSY = 0 and DONE = 1. If nothing but a finite inbox is presented, at the latest one step
after it is used up. That the open latency is the count `patience`, and that the engine moves when nothing is presented, is
the model's choice (assumptions 2 and 22). -/
def Obligations.EveryRunCompletes : Prop :=
  (∀ (s : State) (env : Environment), s.busy = true → (∀ k u, ∀ e ∈ env k u, e ≠ .reset) →
    ∃ n t, n ≤ s.patience + 1 ∧ drive env n s = .next t ∧ t.busy = false ∧ t.done = true) ∧
  (∀ s : State, s.busy = true →
    ∃ n t w, n ≤ s.patience + 2 ∧ drive (fun _ _ => [.request scriptWaitRead]) n s = .next t ∧
      t.response = some ⟨.ok, some w⟩ ∧ scriptWaitTest w = true) ∧
  (∀ s : State, s.busy = true → (∀ e ∈ s.inbox, e ≠ .reset) →
    ∃ n t, n ≤ s.inbox.length + 1 ∧ Host.Core.run core n s = .next t ∧ t.busy = false ∧ t.done = true)

/-- Both orders of a request and a completion are behaviours of the model (60_exceptions.md R205): a CALIBRATE before the
completion is refused and BUSY ends 0; after it, it is accepted and BUSY ends 1. The completion also comes first, whatever
the schedule, when it can be held off no longer (the model's choice, assumption 22). -/
def Obligations.BothOrdersOfRequestAndCompletion : Prop :=
  ∀ (s : State) (rest : List Event), s.busy = true → s.errBusy = false →
    (s.patience ≠ 0 →
      ∃ t, Host.Core.run core 2 { s with inbox := .request scriptCalibrate :: .engine :: rest } = .next t ∧
        t.busy = false ∧ t.done = true ∧ t.errBusy = true) ∧
    (∃ t, Host.Core.run core 2 { s with inbox := .engine :: .request scriptCalibrate :: rest } = .next t ∧
      t.busy = true ∧ t.done = false ∧ t.errBusy = false) ∧
    (s.patience = 0 →
      ∃ t, Host.Core.run core 2 { s with inbox := .request scriptCalibrate :: rest } = .next t ∧
        t.busy = true ∧ t.done = false ∧ t.errBusy = false)

/-- R226: a STATUS read after an accepted CALIBRATE answers BUSY = 1 and DONE = 0 if the run has not completed, and
BUSY = 0 and DONE = 1 if it has, be it by the schedule or because the completion can be held off no longer (the model's
choice, assumption 22). -/
def Obligations.StatusReadAfterCalibrate : Prop :=
  ∀ (s : State) (rest : List Event), s.busy = false →
    (s.patience ≠ 0 → ∃ t w, Host.Core.run core 2
        { s with inbox := .request scriptCalibrate :: .request scriptWaitRead :: rest } = .next t ∧
      t.response = some ⟨.ok, some w⟩ ∧ w &&& 0x3#32 = 0x1#32) ∧
    (∃ t w, Host.Core.run core 3
        { s with inbox := .request scriptCalibrate :: .engine :: .request scriptWaitRead :: rest } = .next t ∧
      t.response = some ⟨.ok, some w⟩ ∧ w &&& 0x3#32 = 0x2#32) ∧
    (s.patience = 0 → ∃ t w, Host.Core.run core 3
        { s with inbox := .request scriptCalibrate :: .request scriptWaitRead :: rest } = .next t ∧
      t.response = some ⟨.ok, some w⟩ ∧ w &&& 0x3#32 = 0x2#32)
end

