-- ==== Sys2Proof/Laws/Decode.lean ====
section
/-! SUPPORT. The fields of a header that was put together, and the decoder on each form of header. -/

namespace Sys2Proof

/-- Bit `i` of a header that was put together. -/
theorem Header.getLsbD_make (w : Bool) (size : BitVec 2) (addr : Offset) (i : Nat) :
    (Header.make w size addr).getLsbD i =
      if i < 12 then addr.getLsbD i else if i < 14 then size.getLsbD (i - 12) else decide (i = 14) && w := by
  simp only [Header.make, BitVec.getLsbD_append, BitVec.getLsbD_ofBool]
  split
  · rfl
  · split
    · rw [if_pos (by omega)]
    · rw [if_neg (by omega)]
      congr 1
      exact decide_eq_decide.mpr (by omega)

@[simp] theorem Header.write_make (w : Bool) (size : BitVec 2) (addr : Offset) :
    (Header.make w size addr).write = w := by
  rw [Header.write, Header.getLsbD_make]
  simp

@[simp] theorem Header.size_make (w : Bool) (size : BitVec 2) (addr : Offset) :
    (Header.make w size addr).size = size := by
  apply BitVec.eq_of_getLsbD_eq
  intro i hi
  simp only [Header.size, BitVec.getLsbD_extractLsb', Header.getLsbD_make]
  simp [hi]
  intro h
  omega

@[simp] theorem Header.addr_make (w : Bool) (size : BitVec 2) (addr : Offset) :
    (Header.make w size addr).addr = addr := by
  apply BitVec.eq_of_getLsbD_eq
  intro i hi
  simp only [Header.addr, BitVec.getLsbD_extractLsb', Header.getLsbD_make]
  simp [hi]

/-- A header is made of its three fields. -/
theorem Header.make_fields (h : Header) : Header.make h.write h.size h.addr = h := by
  apply BitVec.eq_of_getLsbD_eq
  intro i hi
  simp only [Header.write, Header.size, Header.addr, Header.make, BitVec.getLsbD_append, BitVec.getLsbD_extractLsb',
    BitVec.getLsbD_ofBool]
  have : i < 15 := hi
  interval_cases i <;> simp

/-- A 2-bit SIZE code is one of four. -/
theorem size_cases (c : BitVec 2) : c = 0b00#2 ∨ c = 0b01#2 ∨ c = 0b10#2 ∨ c = 0b11#2 := by
  revert c
  decide

/-- The decoder on a 32-bit access. -/
theorem decodeRequest_size32 (r : Request) (h : r.header.size = 0b10#2) :
    decodeRequest r =
      if r.header.addr.aligned = false then .error .misaligned
      else if r.header.write then .ok (decodeWrite r.header.addr r.data) else .ok (.rd32 r.header.addr) := by
  simp [decodeRequest, h]

/-- The decoder on an access of another size. -/
theorem decodeRequest_not_size32 (r : Request) (h : r.header.size ≠ 0b10#2) : ∃ e, decodeRequest r = .error e := by
  unfold decodeRequest
  rcases size_cases r.header.size with c | c | c | c
  · exact ⟨_, if_pos c⟩
  · exact ⟨.size16, by simp [c]⟩
  · exact absurd c h
  · exact ⟨.sizeReserved, by simp [c]⟩

end Sys2Proof
end

