-- ==== Sys2Proof/Laws/State.lean ====
section
/-! SUPPORT. One lemma per field of State and per named update, each true by rfl, so that no later proof unfolds a record
update. -/

namespace Sys2Proof.Machine

@[simp] theorem setErrBusy_ie (s : State) : (setErrBusy s).ie = s.ie := rfl
@[simp] theorem setErrBusy_busy (s : State) : (setErrBusy s).busy = s.busy := rfl
@[simp] theorem setErrBusy_done (s : State) : (setErrBusy s).done = s.done := rfl
@[simp] theorem setErrBusy_errBusy (s : State) : (setErrBusy s).errBusy = true := rfl
@[simp] theorem setErrBusy_errCmd (s : State) : (setErrBusy s).errCmd = s.errCmd := rfl
@[simp] theorem setErrBusy_len (s : State) : (setErrBusy s).len = s.len := rfl
@[simp] theorem setErrBusy_results (s : State) : (setErrBusy s).results = s.results := rfl
@[simp] theorem setErrBusy_samples (s : State) : (setErrBusy s).samples = s.samples := rfl
@[simp] theorem setErrBusy_response (s : State) : (setErrBusy s).response = s.response := rfl
@[simp] theorem setErrBusy_inbox (s : State) : (setErrBusy s).inbox = s.inbox := rfl
@[simp] theorem setErrBusy_resetCount (s : State) : (setErrBusy s).resetCount = s.resetCount := rfl
@[simp] theorem setErrBusy_patience (s : State) : (setErrBusy s).patience = s.patience := rfl
@[simp] theorem setErrBusy_runCount (s : State) : (setErrBusy s).runCount = s.runCount := rfl

@[simp] theorem setErrCmd_ie (s : State) : (setErrCmd s).ie = s.ie := rfl
@[simp] theorem setErrCmd_busy (s : State) : (setErrCmd s).busy = s.busy := rfl
@[simp] theorem setErrCmd_done (s : State) : (setErrCmd s).done = s.done := rfl
@[simp] theorem setErrCmd_errBusy (s : State) : (setErrCmd s).errBusy = s.errBusy := rfl
@[simp] theorem setErrCmd_errCmd (s : State) : (setErrCmd s).errCmd = true := rfl
@[simp] theorem setErrCmd_len (s : State) : (setErrCmd s).len = s.len := rfl
@[simp] theorem setErrCmd_results (s : State) : (setErrCmd s).results = s.results := rfl
@[simp] theorem setErrCmd_samples (s : State) : (setErrCmd s).samples = s.samples := rfl
@[simp] theorem setErrCmd_response (s : State) : (setErrCmd s).response = s.response := rfl
@[simp] theorem setErrCmd_inbox (s : State) : (setErrCmd s).inbox = s.inbox := rfl
@[simp] theorem setErrCmd_resetCount (s : State) : (setErrCmd s).resetCount = s.resetCount := rfl
@[simp] theorem setErrCmd_patience (s : State) : (setErrCmd s).patience = s.patience := rfl
@[simp] theorem setErrCmd_runCount (s : State) : (setErrCmd s).runCount = s.runCount := rfl

@[simp] theorem ackStatus_ie (d : Word) (s : State) : (ackStatus d s).ie = s.ie := rfl
@[simp] theorem ackStatus_busy (d : Word) (s : State) : (ackStatus d s).busy = s.busy := rfl
@[simp] theorem ackStatus_done (d : Word) (s : State) : (ackStatus d s).done = (s.done && !d.getLsbD 1) := rfl
@[simp] theorem ackStatus_errBusy (d : Word) (s : State) : (ackStatus d s).errBusy = (s.errBusy && !d.getLsbD 2) := rfl
@[simp] theorem ackStatus_errCmd (d : Word) (s : State) : (ackStatus d s).errCmd = (s.errCmd && !d.getLsbD 3) := rfl
@[simp] theorem ackStatus_len (d : Word) (s : State) : (ackStatus d s).len = s.len := rfl
@[simp] theorem ackStatus_results (d : Word) (s : State) : (ackStatus d s).results = s.results := rfl
@[simp] theorem ackStatus_samples (d : Word) (s : State) : (ackStatus d s).samples = s.samples := rfl
@[simp] theorem ackStatus_response (d : Word) (s : State) : (ackStatus d s).response = s.response := rfl
@[simp] theorem ackStatus_inbox (d : Word) (s : State) : (ackStatus d s).inbox = s.inbox := rfl
@[simp] theorem ackStatus_resetCount (d : Word) (s : State) : (ackStatus d s).resetCount = s.resetCount := rfl
@[simp] theorem ackStatus_patience (d : Word) (s : State) : (ackStatus d s).patience = s.patience := rfl
@[simp] theorem ackStatus_runCount (d : Word) (s : State) : (ackStatus d s).runCount = s.runCount := rfl

@[simp] theorem respond_ie (r : BusResponse) (s : State) : (respond r s).ie = s.ie := rfl
@[simp] theorem respond_busy (r : BusResponse) (s : State) : (respond r s).busy = s.busy := rfl
@[simp] theorem respond_done (r : BusResponse) (s : State) : (respond r s).done = s.done := rfl
@[simp] theorem respond_errBusy (r : BusResponse) (s : State) : (respond r s).errBusy = s.errBusy := rfl
@[simp] theorem respond_errCmd (r : BusResponse) (s : State) : (respond r s).errCmd = s.errCmd := rfl
@[simp] theorem respond_len (r : BusResponse) (s : State) : (respond r s).len = s.len := rfl
@[simp] theorem respond_results (r : BusResponse) (s : State) : (respond r s).results = s.results := rfl
@[simp] theorem respond_samples (r : BusResponse) (s : State) : (respond r s).samples = s.samples := rfl
@[simp] theorem respond_response (r : BusResponse) (s : State) : (respond r s).response = some r := rfl
@[simp] theorem respond_inbox (r : BusResponse) (s : State) : (respond r s).inbox = s.inbox := rfl
@[simp] theorem respond_resetCount (r : BusResponse) (s : State) : (respond r s).resetCount = s.resetCount := rfl
@[simp] theorem respond_patience (r : BusResponse) (s : State) : (respond r s).patience = s.patience := rfl
@[simp] theorem respond_runCount (r : BusResponse) (s : State) : (respond r s).runCount = s.runCount := rfl

@[simp] theorem writeCtrl_ie (d : Word) (s : State) : (writeCtrl d s).ie = d.getLsbD 0 := rfl
@[simp] theorem writeCtrl_busy (d : Word) (s : State) : (writeCtrl d s).busy = s.busy := rfl
@[simp] theorem writeCtrl_done (d : Word) (s : State) : (writeCtrl d s).done = s.done := rfl
@[simp] theorem writeCtrl_errBusy (d : Word) (s : State) : (writeCtrl d s).errBusy = s.errBusy := rfl
@[simp] theorem writeCtrl_errCmd (d : Word) (s : State) : (writeCtrl d s).errCmd = s.errCmd := rfl
@[simp] theorem writeCtrl_len (d : Word) (s : State) : (writeCtrl d s).len = s.len := rfl
@[simp] theorem writeCtrl_results (d : Word) (s : State) : (writeCtrl d s).results = s.results := rfl
@[simp] theorem writeCtrl_samples (d : Word) (s : State) : (writeCtrl d s).samples = s.samples := rfl
@[simp] theorem writeCtrl_response (d : Word) (s : State) : (writeCtrl d s).response = s.response := rfl
@[simp] theorem writeCtrl_inbox (d : Word) (s : State) : (writeCtrl d s).inbox = s.inbox := rfl
@[simp] theorem writeCtrl_resetCount (d : Word) (s : State) : (writeCtrl d s).resetCount = s.resetCount := rfl
@[simp] theorem writeCtrl_patience (d : Word) (s : State) : (writeCtrl d s).patience = s.patience := rfl
@[simp] theorem writeCtrl_runCount (d : Word) (s : State) : (writeCtrl d s).runCount = s.runCount := rfl

@[simp] theorem complete_ie (s : State) : (complete s).ie = s.ie := rfl
@[simp] theorem complete_busy (s : State) : (complete s).busy = false := rfl
@[simp] theorem complete_done (s : State) : (complete s).done = true := rfl
@[simp] theorem complete_errBusy (s : State) : (complete s).errBusy = s.errBusy := rfl
@[simp] theorem complete_errCmd (s : State) : (complete s).errCmd = s.errCmd := rfl
@[simp] theorem complete_len (s : State) : (complete s).len = s.len := rfl
@[simp] theorem complete_results (s : State) : (complete s).results = resultRegs (calibrate s.samples s.len.toNat) := rfl
@[simp] theorem complete_samples (s : State) : (complete s).samples = s.samples := rfl
@[simp] theorem complete_response (s : State) : (complete s).response = s.response := rfl
@[simp] theorem complete_inbox (s : State) : (complete s).inbox = s.inbox := rfl
@[simp] theorem complete_resetCount (s : State) : (complete s).resetCount = s.resetCount := rfl
@[simp] theorem complete_patience (s : State) : (complete s).patience = s.patience := rfl
@[simp] theorem complete_runCount (s : State) : (complete s).runCount = s.runCount := rfl

@[simp] theorem platformReset_ie (s : State) : (platformReset s).ie = false := rfl
@[simp] theorem platformReset_busy (s : State) : (platformReset s).busy = false := rfl
@[simp] theorem platformReset_done (s : State) : (platformReset s).done = false := rfl
@[simp] theorem platformReset_errBusy (s : State) : (platformReset s).errBusy = false := rfl
@[simp] theorem platformReset_errCmd (s : State) : (platformReset s).errCmd = false := rfl
@[simp] theorem platformReset_len (s : State) : (platformReset s).len = 0#8 := rfl
@[simp] theorem platformReset_results (s : State) : (platformReset s).results = ResultRegs.reset := rfl
@[simp] theorem platformReset_samples (s : State) : (platformReset s).samples = samplesAtReset (s.resetCount + 1) := rfl
@[simp] theorem platformReset_response (s : State) : (platformReset s).response = none := rfl
@[simp] theorem platformReset_inbox (s : State) : (platformReset s).inbox = s.inbox := rfl
@[simp] theorem platformReset_resetCount (s : State) : (platformReset s).resetCount = s.resetCount + 1 := rfl
@[simp] theorem platformReset_patience (s : State) : (platformReset s).patience = Config.latency (s.runCount + 1) := rfl
@[simp] theorem platformReset_runCount (s : State) : (platformReset s).runCount = s.runCount + 1 := rfl

@[simp] theorem presentFirst_ie (r : Request) (s : State) : (presentFirst r s).ie = s.ie := rfl
@[simp] theorem presentFirst_busy (r : Request) (s : State) : (presentFirst r s).busy = s.busy := rfl
@[simp] theorem presentFirst_done (r : Request) (s : State) : (presentFirst r s).done = s.done := rfl
@[simp] theorem presentFirst_errBusy (r : Request) (s : State) : (presentFirst r s).errBusy = s.errBusy := rfl
@[simp] theorem presentFirst_errCmd (r : Request) (s : State) : (presentFirst r s).errCmd = s.errCmd := rfl
@[simp] theorem presentFirst_len (r : Request) (s : State) : (presentFirst r s).len = s.len := rfl
@[simp] theorem presentFirst_results (r : Request) (s : State) : (presentFirst r s).results = s.results := rfl
@[simp] theorem presentFirst_samples (r : Request) (s : State) : (presentFirst r s).samples = s.samples := rfl
@[simp] theorem presentFirst_response (r : Request) (s : State) : (presentFirst r s).response = s.response := rfl
@[simp] theorem presentFirst_inbox (r : Request) (s : State) : (presentFirst r s).inbox = .request r :: s.inbox := rfl
@[simp] theorem presentFirst_resetCount (r : Request) (s : State) : (presentFirst r s).resetCount = s.resetCount := rfl
@[simp] theorem presentFirst_patience (r : Request) (s : State) : (presentFirst r s).patience = s.patience := rfl
@[simp] theorem presentFirst_runCount (r : Request) (s : State) : (presentFirst r s).runCount = s.runCount := rfl

@[simp] theorem respondRead_ie (w : Word) (s : State) : (respondRead w s).ie = s.ie := rfl
@[simp] theorem respondRead_busy (w : Word) (s : State) : (respondRead w s).busy = s.busy := rfl
@[simp] theorem respondRead_done (w : Word) (s : State) : (respondRead w s).done = s.done := rfl
@[simp] theorem respondRead_errBusy (w : Word) (s : State) : (respondRead w s).errBusy = s.errBusy := rfl
@[simp] theorem respondRead_errCmd (w : Word) (s : State) : (respondRead w s).errCmd = s.errCmd := rfl
@[simp] theorem respondRead_len (w : Word) (s : State) : (respondRead w s).len = s.len := rfl
@[simp] theorem respondRead_results (w : Word) (s : State) : (respondRead w s).results = s.results := rfl
@[simp] theorem respondRead_samples (w : Word) (s : State) : (respondRead w s).samples = s.samples := rfl
@[simp] theorem respondRead_response (w : Word) (s : State) : (respondRead w s).response = some ⟨.ok, some w⟩ := rfl
@[simp] theorem respondRead_inbox (w : Word) (s : State) : (respondRead w s).inbox = s.inbox := rfl
@[simp] theorem respondRead_resetCount (w : Word) (s : State) : (respondRead w s).resetCount = s.resetCount := rfl
@[simp] theorem respondRead_patience (w : Word) (s : State) : (respondRead w s).patience = s.patience := rfl
@[simp] theorem respondRead_runCount (w : Word) (s : State) : (respondRead w s).runCount = s.runCount := rfl

@[simp] theorem respondWrite_ie (s : State) : (respondWrite s).ie = s.ie := rfl
@[simp] theorem respondWrite_busy (s : State) : (respondWrite s).busy = s.busy := rfl
@[simp] theorem respondWrite_done (s : State) : (respondWrite s).done = s.done := rfl
@[simp] theorem respondWrite_errBusy (s : State) : (respondWrite s).errBusy = s.errBusy := rfl
@[simp] theorem respondWrite_errCmd (s : State) : (respondWrite s).errCmd = s.errCmd := rfl
@[simp] theorem respondWrite_len (s : State) : (respondWrite s).len = s.len := rfl
@[simp] theorem respondWrite_results (s : State) : (respondWrite s).results = s.results := rfl
@[simp] theorem respondWrite_samples (s : State) : (respondWrite s).samples = s.samples := rfl
@[simp] theorem respondWrite_response (s : State) : (respondWrite s).response = some ⟨.ok, none⟩ := rfl
@[simp] theorem respondWrite_inbox (s : State) : (respondWrite s).inbox = s.inbox := rfl
@[simp] theorem respondWrite_resetCount (s : State) : (respondWrite s).resetCount = s.resetCount := rfl
@[simp] theorem respondWrite_patience (s : State) : (respondWrite s).patience = s.patience := rfl
@[simp] theorem respondWrite_runCount (s : State) : (respondWrite s).runCount = s.runCount := rfl

@[simp] theorem accessFault_ie (w : Bool) (s : State) : (accessFault w s).ie = s.ie := rfl
@[simp] theorem accessFault_busy (w : Bool) (s : State) : (accessFault w s).busy = s.busy := rfl
@[simp] theorem accessFault_done (w : Bool) (s : State) : (accessFault w s).done = s.done := rfl
@[simp] theorem accessFault_errBusy (w : Bool) (s : State) : (accessFault w s).errBusy = s.errBusy := rfl
@[simp] theorem accessFault_errCmd (w : Bool) (s : State) : (accessFault w s).errCmd = s.errCmd := rfl
@[simp] theorem accessFault_len (w : Bool) (s : State) : (accessFault w s).len = s.len := rfl
@[simp] theorem accessFault_results (w : Bool) (s : State) : (accessFault w s).results = s.results := rfl
@[simp] theorem accessFault_samples (w : Bool) (s : State) : (accessFault w s).samples = s.samples := rfl
@[simp] theorem accessFault_response (w : Bool) (s : State) : (accessFault w s).response = some ⟨.err, if w then none else some 0x00000000#32⟩ := rfl
@[simp] theorem accessFault_inbox (w : Bool) (s : State) : (accessFault w s).inbox = s.inbox := rfl
@[simp] theorem accessFault_resetCount (w : Bool) (s : State) : (accessFault w s).resetCount = s.resetCount := rfl
@[simp] theorem accessFault_patience (w : Bool) (s : State) : (accessFault w s).patience = s.patience := rfl
@[simp] theorem accessFault_runCount (w : Bool) (s : State) : (accessFault w s).runCount = s.runCount := rfl

@[simp] theorem drawLatency_ie (s : State) : (drawLatency s).ie = s.ie := rfl
@[simp] theorem drawLatency_busy (s : State) : (drawLatency s).busy = s.busy := rfl
@[simp] theorem drawLatency_done (s : State) : (drawLatency s).done = s.done := rfl
@[simp] theorem drawLatency_errBusy (s : State) : (drawLatency s).errBusy = s.errBusy := rfl
@[simp] theorem drawLatency_errCmd (s : State) : (drawLatency s).errCmd = s.errCmd := rfl
@[simp] theorem drawLatency_len (s : State) : (drawLatency s).len = s.len := rfl
@[simp] theorem drawLatency_results (s : State) : (drawLatency s).results = s.results := rfl
@[simp] theorem drawLatency_samples (s : State) : (drawLatency s).samples = s.samples := rfl
@[simp] theorem drawLatency_response (s : State) : (drawLatency s).response = s.response := rfl
@[simp] theorem drawLatency_inbox (s : State) : (drawLatency s).inbox = s.inbox := rfl
@[simp] theorem drawLatency_resetCount (s : State) : (drawLatency s).resetCount = s.resetCount := rfl
@[simp] theorem drawLatency_patience (s : State) : (drawLatency s).patience = Config.latency (s.runCount + 1) := rfl
@[simp] theorem drawLatency_runCount (s : State) : (drawLatency s).runCount = s.runCount + 1 := rfl

@[simp] theorem takeEvent_ie (e : Event) (rest : List Event) (s : State) : (takeEvent e rest s).ie = s.ie := rfl
@[simp] theorem takeEvent_busy (e : Event) (rest : List Event) (s : State) : (takeEvent e rest s).busy = s.busy := rfl
@[simp] theorem takeEvent_done (e : Event) (rest : List Event) (s : State) : (takeEvent e rest s).done = s.done := rfl
@[simp] theorem takeEvent_errBusy (e : Event) (rest : List Event) (s : State) : (takeEvent e rest s).errBusy = s.errBusy := rfl
@[simp] theorem takeEvent_errCmd (e : Event) (rest : List Event) (s : State) : (takeEvent e rest s).errCmd = s.errCmd := rfl
@[simp] theorem takeEvent_len (e : Event) (rest : List Event) (s : State) : (takeEvent e rest s).len = s.len := rfl
@[simp] theorem takeEvent_results (e : Event) (rest : List Event) (s : State) : (takeEvent e rest s).results = s.results := rfl
@[simp] theorem takeEvent_samples (e : Event) (rest : List Event) (s : State) : (takeEvent e rest s).samples = s.samples := rfl
@[simp] theorem takeEvent_response (e : Event) (rest : List Event) (s : State) : (takeEvent e rest s).response = s.response := rfl
@[simp] theorem takeEvent_inbox (e : Event) (rest : List Event) (s : State) : (takeEvent e rest s).inbox = rest := rfl
@[simp] theorem takeEvent_resetCount (e : Event) (rest : List Event) (s : State) : (takeEvent e rest s).resetCount = s.resetCount := rfl
@[simp] theorem takeEvent_patience (e : Event) (rest : List Event) (s : State) : (takeEvent e rest s).patience = (if hostEvent e && s.busy then s.patience - 1 else s.patience) := rfl
@[simp] theorem takeEvent_runCount (e : Event) (rest : List Event) (s : State) : (takeEvent e rest s).runCount = s.runCount := rfl

@[simp] theorem letOneMorePass_ie (s : State) : (letOneMorePass s).ie = s.ie := rfl
@[simp] theorem letOneMorePass_busy (s : State) : (letOneMorePass s).busy = s.busy := rfl
@[simp] theorem letOneMorePass_done (s : State) : (letOneMorePass s).done = s.done := rfl
@[simp] theorem letOneMorePass_errBusy (s : State) : (letOneMorePass s).errBusy = s.errBusy := rfl
@[simp] theorem letOneMorePass_errCmd (s : State) : (letOneMorePass s).errCmd = s.errCmd := rfl
@[simp] theorem letOneMorePass_len (s : State) : (letOneMorePass s).len = s.len := rfl
@[simp] theorem letOneMorePass_results (s : State) : (letOneMorePass s).results = s.results := rfl
@[simp] theorem letOneMorePass_samples (s : State) : (letOneMorePass s).samples = s.samples := rfl
@[simp] theorem letOneMorePass_response (s : State) : (letOneMorePass s).response = s.response := rfl
@[simp] theorem letOneMorePass_inbox (s : State) : (letOneMorePass s).inbox = s.inbox := rfl
@[simp] theorem letOneMorePass_resetCount (s : State) : (letOneMorePass s).resetCount = s.resetCount := rfl
@[simp] theorem letOneMorePass_patience (s : State) : (letOneMorePass s).patience = (if s.busy then s.patience + 1 else s.patience) := rfl
@[simp] theorem letOneMorePass_runCount (s : State) : (letOneMorePass s).runCount = s.runCount := rfl

end Sys2Proof.Machine
end

