-- ==== Sys2Proof/Laws/Ops.lean ====
section
/-! SUPPORT. What each shared operation can do, said once: the offset decoding, the refusal while BUSY, the command
dispatch, the register write, the answers. -/

namespace Sys2Proof.Machine

/-! ### Offsets and registers -/

theorem aligned_iff (off : Offset) : off.aligned = true ↔ off.toNat % 4 = 0 := by
  unfold Offset.aligned
  rw [beq_iff_eq, ← BitVec.toNat_inj]
  simp [BitVec.extractLsb'_toNat]

theorem aligned_ofNat (n : Nat) (h4 : n % 4 = 0) : Offset.aligned (BitVec.ofNat 12 n) = true := by
  rw [aligned_iff, BitVec.toNat_ofNat]
  omega

/-- Beyond the registers that stand alone, an offset names a word of a table or nothing. -/
theorem regAt_high (off : Nat) (h : 0x040 ≤ off) : regAt off = tableRegAt off := by
  unfold regAt
  repeat rw [if_neg (by omega)]

theorem regAt_sample (j : Fin 224) : regAt (0x800 + 4 * j.val) = .sample j := by
  have := j.isLt
  rw [regAt_high _ (by omega), tableRegAt, dif_neg (by omega), dif_pos (by omega)]
  congr 1
  exact Fin.ext (by simp)

theorem regAt_peak (k : Fin 32) (o : Nat) (ho : o < 32) : regAt (0x400 + 32 * k.val + o) = .peak k (peakFieldAt o) := by
  have := k.isLt
  rw [regAt_high _ (by omega), tableRegAt, dif_pos (by omega)]
  have h1 : (0x400 + 32 * k.val + o - 0x400) / 32 = k.val := by omega
  have h2 : (0x400 + 32 * k.val + o - 0x400) % 32 = o := by omega
  simp only [h1, h2]

theorem regAt_reserved (off : Nat)
    (h : off = 0x018 ∨ off = 0x01C ∨ (0x040 ≤ off ∧ off ≤ 0x3FF) ∨ 0xB80 ≤ off) : regAt off = .reserved := by
  rcases h with rfl | rfl | h | h
  · rfl
  · rfl
  · rw [regAt_high _ h.1, tableRegAt, dif_neg (by omega), dif_neg (by omega)]
  · rw [regAt_high _ (by omega), tableRegAt, dif_neg (by omega), dif_neg (by omega)]

theorem sampleOffset_toNat (j : Fin 224) : (sampleOffset j).toNat = 0x800 + 4 * j.val := by
  have := j.isLt
  rw [sampleOffset, BitVec.toNat_ofNat, Nat.mod_eq_of_lt (by omega)]

/-! ### Answers -/

theorem respondRead_eq (w : Word) (s : State) : respondRead w s = { s with response := some ⟨.ok, some w⟩ } := rfl

theorem respondWrite_eq (s : State) : respondWrite s = { s with response := some ⟨.ok, none⟩ } := rfl

theorem accessFault_eq (w : Bool) (s : State) :
    accessFault w s = { s with response := some ⟨.err, if w then none else some 0x00000000#32⟩ } := rfl

/-! ### The refusal while BUSY -/

theorem unlessBusy_busy (s a : State) (h : s.busy = true) : unlessBusy s a = setErrBusy s := by
  simp [unlessBusy, h]

theorem unlessBusy_idle (s a : State) (h : s.busy = false) : unlessBusy s a = a := by
  simp [unlessBusy, h]

theorem unlessBusy_inbox (s a : State) (h : a.inbox = s.inbox) : (unlessBusy s a).inbox = s.inbox := by
  unfold unlessBusy
  split
  · rfl
  · exact h

/-! ### The command dispatch -/

/-- The command table has three words. -/
theorem decodeCommand_cases (d : Word) :
    (d = 0#32 ∧ decodeCommand d = some .nop) ∨ (d = 1#32 ∧ decodeCommand d = some .calibrate) ∨
    (d = 2#32 ∧ decodeCommand d = some .clear) ∨ (d ≠ 0#32 ∧ d ≠ 1#32 ∧ d ≠ 2#32 ∧ decodeCommand d = none) := by
  unfold decodeCommand
  split
  · simp_all
  · split
    · simp_all
    · split <;> simp_all

/-- Everything a write to CMD can do. -/
theorem runCommand_cases (d : Word) (s : State) :
    (d = 0#32 ∧ runCommand d s = s) ∨ (d = 1#32 ∧ runCommand d s = startCalibration s) ∨
    (d = 2#32 ∧ runCommand d s = clearResults s) ∨
    (d ≠ 0#32 ∧ d ≠ 1#32 ∧ d ≠ 2#32 ∧ runCommand d s = setErrCmd s) := by
  unfold runCommand
  rcases decodeCommand_cases d with ⟨h, e⟩ | ⟨h, e⟩ | ⟨h, e⟩ | ⟨h0, h1, h2, e⟩ <;> rw [e]
  · exact .inl ⟨h, rfl⟩
  · exact .inr (.inl ⟨h, rfl⟩)
  · exact .inr (.inr (.inl ⟨h, rfl⟩))
  · exact .inr (.inr (.inr ⟨h0, h1, h2, rfl⟩))

/-! ### The meanings -/

/-- Every instruction answers a next state. -/
theorem exec_total (i : Instr) (s : State) : ∃ t, exec i s = .next t := by
  cases i <;> exact ⟨_, rfl⟩

theorem execRd32_aligned (off : Offset) (s : State) (h : off.toNat % 4 = 0) :
    exec (.rd32 off) s = .next (respondRead (readWord s off.toNat) s) := by
  simp [exec, execRd32, (aligned_iff off).mpr h]

theorem execWr32_aligned (off : Offset) (d : Word) (s : State) (h : off.toNat % 4 = 0) :
    exec (.wr32 off d) s = .next (respondWrite (writeWord s off.toNat d)) := by
  simp [exec, execWr32, (aligned_iff off).mpr h]

end Sys2Proof.Machine
end

