-- ==== Sys2Proof/Laws/PerInstr.lean ====
section
/-! SUPPORT. Statements made per instruction, one lemma per constructor of `Instr`. -/

namespace Sys2Proof.Laws

/-- The request of a well-formed instruction is a 32-bit access at a 4-aligned offset (30_encoding.md R82). -/
def EncodeLegal.Statement (i : Instr) : Prop :=
  i.wellFormed = true → (encode i).header.size = size32 ∧ (encode i).header.addr.aligned = true

theorem EncodeLegal.rd32 (off : Offset) : EncodeLegal.Statement (.rd32 off) := by
  intro h
  simp only [Instr.wellFormed] at h
  exact ⟨by simp [encode], by simpa [encode] using h⟩

theorem EncodeLegal.wr32 (off : Offset) (data : Word) : EncodeLegal.Statement (.wr32 off data) := by
  intro h
  simp only [Instr.wellFormed, Bool.and_eq_true] at h
  exact ⟨by simp [encode], by simpa [encode] using h.1⟩

theorem EncodeLegal.nop : EncodeLegal.Statement .nop := fun _ => ⟨rfl, rfl⟩

theorem EncodeLegal.calibrate : EncodeLegal.Statement .calibrate := fun _ => ⟨rfl, rfl⟩

theorem EncodeLegal.clear : EncodeLegal.Statement .clear := fun _ => ⟨rfl, rfl⟩

end Sys2Proof.Laws
end

