-- ==== Sys2Proof/Laws/Stages.lean ====
section
/-! SUPPORT. What each shared operation of the algorithm's stages does, said once: slices and minima of a window, the
bound step, the scan, the merge walk, the quiet-run search, greatest values and first hits. -/

namespace Sys2Proof.Machine

/-! ### Windows -/

/-- A sample of a window given by a formula. -/
theorem sampleAt_range_map (f : Nat → Nat) (n i : Nat) (h : i < n) : sampleAt ((List.range n).map f) i = f i := by
  rw [sampleAt, List.getD_eq_getElem _ _ (by simpa using h)]
  simp

/-- A slice inside the window lists its samples in order. -/
theorem slice_eq_map (s : List Nat) (lo hi : Nat) (h : hi < s.length) (hlo : lo ≤ hi + 1) :
    slice s lo hi = (List.range' lo (hi + 1 - lo)).map (sampleAt s) := by
  apply List.ext_getElem
  · simp [slice]
    omega
  · intro k h1 h2
    simp [slice] at h1
    simp only [slice, sampleAt, List.getElem_take, List.getElem_drop, List.getElem_map, List.getElem_range', Nat.one_mul]
    rw [List.getD_eq_getElem]

theorem foldl_min_spec (l : List Nat) (a : Nat) :
    l.foldl min a ≤ a ∧ (∀ x ∈ l, l.foldl min a ≤ x) ∧ (l.foldl min a = a ∨ l.foldl min a ∈ l) := by
  induction l generalizing a with
  | nil => simp
  | cons x l ih =>
    simp only [List.foldl_cons]
    obtain ⟨h1, h2, h3⟩ := ih (min a x)
    refine ⟨by omega, ?_, ?_⟩
    · intro y hy
      rcases List.mem_cons.mp hy with rfl | hy
      · omega
      · exact h2 y hy
    · rcases h3 with h3 | h3
      · rcases Nat.le_total a x with h | h
        · exact .inl (by omega)
        · exact .inr (by rw [h3, min_eq_right h]; simp)
      · exact .inr (List.mem_cons_of_mem _ h3)

/-- `minOver` is one of the samples of its span, and at most each of them. -/
theorem minOver_spec (s : List Nat) (lo hi : Nat) (h : hi < s.length) (hlo : lo ≤ hi) :
    (∃ k, lo ≤ k ∧ k ≤ hi ∧ minOver s lo hi = sampleAt s k) ∧
    ∀ k, lo ≤ k → k ≤ hi → minOver s lo hi ≤ sampleAt s k := by
  unfold minOver
  rw [slice_eq_map s lo hi h (by omega)]
  obtain ⟨-, h2, h3⟩ := foldl_min_spec ((List.range' lo (hi + 1 - lo)).map (sampleAt s)) (sampleAt s lo)
  constructor
  · rcases h3 with h3 | h3
    · exact ⟨lo, le_refl _, hlo, h3⟩
    · obtain ⟨k, hk, e⟩ := List.mem_map.mp h3
      obtain ⟨j, hj, rfl⟩ := List.mem_range'.mp hk
      exact ⟨_, by omega, by omega, e.symm⟩
  · intro k hk1 hk2
    exact h2 _ (List.mem_map.mpr ⟨k, List.mem_range'.mpr ⟨k - lo, by omega, by omega⟩, rfl⟩)

/-! ### Detection -/

theorem boundExtends_iff (cur next : Nat) : boundExtends cur next = true ↔ next ≤ cur ∧ 90 < next := by
  simp [boundExtends]
  omega

theorem candidate_iff (s : List Nat) (i : Nat) :
    candidate s i = true ↔
      sampleAt s (i - 1) < sampleAt s i ∧ sampleAt s (i + 1) ≤ sampleAt s i ∧ 225 ≤ sampleAt s i := by
  simp [candidate, and_assoc]

/-- The scan appends the records of the candidates it finds, up to 32 in all. -/
theorem scan_eq (s : List Nat) (is : List Nat) (C : List EchoPeak) (h : C.length ≤ 32) :
    scan s is C = C ++ ((is.filter (candidate s)).take (32 - C.length)).map (candidateRecord s) := by
  induction is generalizing C with
  | nil => simp [scan]
  | cons i is ih =>
    unfold scan
    by_cases hc : C.length = 32
    · simp [hc]
    · rw [if_neg (by simpa using hc)]
      by_cases hi : candidate s i = true
      · obtain ⟨n, hn⟩ : ∃ n, 32 - C.length = n + 1 := ⟨31 - C.length, by omega⟩
        have hl : 32 - (C ++ [candidateRecord s i]).length = n := by simp; omega
        rw [if_pos hi, ih _ (by simp; omega), hl, List.filter_cons_of_pos hi, hn, List.take_succ_cons, List.map_cons]
        simp
      · rw [if_neg hi, ih _ h, List.filter_cons_of_neg hi]

/-! ### Lists of peaks -/

theorem peakAt_of_lt (P : List EchoPeak) (k : Nat) (h : k < P.length) : peakAt P k = P[k] := by
  rw [peakAt, List.getD_eq_getElem _ _ h]

/-- The fold behind `maxAmplitude` and `maxRightBound`. -/
theorem foldl_max_spec (f : EchoPeak → Nat) (Q : List EchoPeak) (a : Nat) :
    a ≤ Q.foldl (fun a q => max a (f q)) a ∧ (∀ q ∈ Q, f q ≤ Q.foldl (fun a q => max a (f q)) a) ∧
    (Q.foldl (fun a q => max a (f q)) a = a ∨ ∃ q ∈ Q, f q = Q.foldl (fun a q => max a (f q)) a) := by
  induction Q generalizing a with
  | nil => simp
  | cons q Q ih =>
    obtain ⟨h1, h2, h3⟩ := ih (max a (f q))
    simp only [List.foldl_cons]
    refine ⟨by omega, ?_, ?_⟩
    · intro x hx
      rcases List.mem_cons.mp hx with rfl | hx
      · omega
      · exact h2 x hx
    · rcases h3 with h3 | ⟨x, hx, h3⟩
      · rcases Nat.le_total a (f q) with h | h
        · exact .inr ⟨q, by simp, by omega⟩
        · exact .inl (by omega)
      · exact .inr ⟨x, by simp [hx], h3⟩

/-- The sort leaves a list in ascending order as it is. -/
theorem sortByPosition_of_ascending (C : List EchoPeak) (h : C.Pairwise fun p q => p.position < q.position) :
    sortByPosition C = C := by
  induction C with
  | nil => rfl
  | cons c C ih =>
    rw [List.pairwise_cons] at h
    rw [sortByPosition, ih h.2]
    cases C with
    | nil => rfl
    | cons d C => rw [insertByPosition, if_pos (Nat.le_of_lt (h.1 d (by simp)))]

/-- The merge walk keeps every property that `absorb` keeps, whatever the property. -/
theorem mergeWalk_keeps (Q : EchoPeak → Prop) (hQ : ∀ a b, Q a → Q b → Q (absorb a b)) (C : List EchoPeak)
    (cl : EchoPeak) (h1 : Q cl) (h2 : ∀ c ∈ C, Q c) : ∀ p ∈ mergeWalk cl C, Q p := by
  have emitted : ∀ c : EchoPeak, Q c → ∀ p ∈ emit c, Q p := by
    intro c hc p hp
    unfold emit at hp
    split at hp
    · rw [List.mem_singleton] at hp
      exact hp ▸ hc
    · cases hp
  induction C generalizing cl with
  | nil => exact emitted cl h1
  | cons c C ih =>
    unfold mergeWalk
    split
    · exact ih _ (hQ _ _ h1 (h2 c (by simp))) fun x hx => h2 x (by simp [hx])
    · intro p hp
      rcases List.mem_append.mp hp with hp | hp
      · exact emitted cl h1 p hp
      · exact ih c (h2 c (by simp)) (fun x hx => h2 x (by simp [hx])) p hp

/-! ### The far search -/

theorem quietAt_iff (s : List Nat) (p : Nat) :
    quietAt s p = true ↔ sampleAt s p < 250 ∧ sampleAt s (p + 1) < 250 ∧ sampleAt s (p + 2) < 250 := by
  simp [quietAt, List.range_succ]

end Sys2Proof.Machine
end

