-- ==== Sys2Proof/Laws/Step.lean ====
section
/-! SUPPORT. What a step can do, said once: `step_cases` inverts a step, and `execEffect` cases give the state an
instruction leads to, so that a proof about steps never unfolds `step` or `exec`. -/

namespace Sys2Proof.Machine

open Sys2Proof.Safety

/-- Everything an instruction can do to the state. -/
theorem exec_cases (i : Instr) (s t : State) (h : exec i s = .next t) :
    (∃ off, i = .rd32 off ∧ (t = respondRead (readWord s off.toNat) s ∨ t = accessFault false s)) ∨
    (∃ off d, i = .wr32 off d ∧ off.toNat % 4 = 0 ∧ t = respondWrite (writeReg d s (regAt off.toNat))) ∨
    (∃ off d, i = .wr32 off d ∧ t = accessFault true s) ∨
    (i = .nop ∧ t = respondWrite s) ∨
    (i = .calibrate ∧ t = respondWrite (startCalibration s)) ∨
    (i = .clear ∧ t = respondWrite (clearResults s)) := by
  cases i with
  | rd32 off =>
    simp only [exec, execRd32, Host.Outcome.next.injEq] at h
    refine .inl ⟨off, rfl, ?_⟩
    split at h
    · exact .inl h.symm
    · exact .inr h.symm
  | wr32 off d =>
    simp only [exec, execWr32, Host.Outcome.next.injEq] at h
    split at h
    · rename_i ha
      exact .inr (.inl ⟨off, d, rfl, (aligned_iff off).mp ha, h.symm⟩)
    · exact .inr (.inr (.inl ⟨off, d, rfl, h.symm⟩))
  | nop =>
    simp only [exec, execNop, noOperation, Host.Outcome.next.injEq] at h
    exact .inr (.inr (.inr (.inl ⟨rfl, h.symm⟩)))
  | calibrate =>
    simp only [exec, execCalibrate, Host.Outcome.next.injEq] at h
    exact .inr (.inr (.inr (.inr (.inl ⟨rfl, h.symm⟩))))
  | clear =>
    simp only [exec, execClear, Host.Outcome.next.injEq] at h
    exact .inr (.inr (.inr (.inr (.inr ⟨rfl, h.symm⟩))))

/-- The registers that ignore a write (40_commands.md R107). -/
def ignoresWrites : Reg → Bool
  | .ctrl     => false
  | .status   => false
  | .cmd      => false
  | .len      => false
  | .sample _ => false
  | _         => true

theorem writeReg_ignored (d : Word) (s : State) (r : Reg) (h : ignoresWrites r = true) : writeReg d s r = s := by
  cases r with
  | ctrl => cases h
  | status => cases h
  | cmd => cases h
  | len => cases h
  | sample j => cases h
  | _ => rfl

theorem regAt_ignoring_low :
    ∀ n < 0x040, n ≠ 0x008 → n ≠ 0x00C → n ≠ 0x010 → n ≠ 0x014 → ignoresWrites (regAt n) = true := by
  decide

/-- The offsets of the registers that ignore a write. -/
theorem regAt_ignoring (n : Nat) (h8 : n ≠ 0x008) (hc : n ≠ 0x00C) (h10 : n ≠ 0x010) (h14 : n ≠ 0x014)
    (hs : ¬ (0x800 ≤ n ∧ n < 0xB80)) : ignoresWrites (regAt n) = true := by
  by_cases hn : 0x040 ≤ n
  · rw [regAt_high n hn, tableRegAt]
    split
    · rfl
    · rfl
  · exact regAt_ignoring_low n (by omega) h8 hc h10 h14

/-- The offsets a write acts on: everything a register write can do, with the offset that does it. -/
theorem writeReg_cases (d : Word) (s : State) (off : Offset) (h4 : off.toNat % 4 = 0) :
    writeReg d s (regAt off.toNat) = s ∨
    (off = 0x008#12 ∧ writeReg d s (regAt off.toNat) = writeCtrl d s) ∨
    (off = 0x00C#12 ∧ writeReg d s (regAt off.toNat) = ackStatus d s) ∨
    (off = 0x010#12 ∧ writeReg d s (regAt off.toNat) = runCommand d s) ∨
    (off = 0x014#12 ∧ writeReg d s (regAt off.toNat) = writeLen d s) ∨
    (∃ j, off = sampleOffset j ∧ writeReg d s (regAt off.toNat) = writeSample j d s) := by
  have lit : ∀ n : Nat, n < 4096 → off.toNat = n → off = BitVec.ofNat 12 n := by
    intro n hn e
    apply BitVec.eq_of_toNat_eq
    rw [BitVec.toNat_ofNat, e, Nat.mod_eq_of_lt (by omega)]
  by_cases h8 : off.toNat = 0x008
  · exact .inr (.inl ⟨lit _ (by omega) h8, by rw [h8]; rfl⟩)
  by_cases hc : off.toNat = 0x00C
  · exact .inr (.inr (.inl ⟨lit _ (by omega) hc, by rw [hc]; rfl⟩))
  by_cases h10 : off.toNat = 0x010
  · exact .inr (.inr (.inr (.inl ⟨lit _ (by omega) h10, by rw [h10]; rfl⟩)))
  by_cases h14 : off.toNat = 0x014
  · exact .inr (.inr (.inr (.inr (.inl ⟨lit _ (by omega) h14, by rw [h14]; rfl⟩))))
  by_cases hs : 0x800 ≤ off.toNat ∧ off.toNat < 0xB80
  · obtain ⟨j, hj⟩ : ∃ j : Fin 224, off.toNat = 0x800 + 4 * j.val :=
      ⟨⟨(off.toNat - 0x800) / 4, by omega⟩, by simp only; omega⟩
    exact .inr (.inr (.inr (.inr (.inr ⟨j, lit _ (by omega) hj, by rw [hj, regAt_sample]; rfl⟩))))
  · exact .inl (writeReg_ignored _ _ _ (regAt_ignoring _ h8 hc h10 h14 hs))

/-- A host step runs the instruction its request decodes to, or answers the AccessFault. -/
theorem hostStep_cases (r : Request) (s t : State) (h : hostStep r s = .next t) :
    (∃ i, decodeRequest r = .ok i ∧ exec i s = .next t) ∨
    ((∃ e, decodeRequest r = .error e) ∧ t = accessFault r.header.write s) := by
  unfold hostStep at h
  split at h
  · exact .inl ⟨_, ‹_›, h⟩
  · rename_i e he
    exact .inr ⟨⟨e, he⟩, by simpa using h.symm⟩

/-! ### The next step of a state whose inbox is known, and runs -/

theorem step_of_empty (s : State) (h : s.inbox = []) : step s = .next (engineTurn s) := by
  simp [step, nextMove, h]

/-- The event at the head of the inbox is taken, if it is not the host's or the engine can wait. -/
theorem step_of_event (s : State) (e : Event) (rest : List Event) (h : s.inbox = e :: rest)
    (hd : (hostEvent e && engineDue s) = false) : step s = handleEvent e (takeEvent e rest s) := by
  simp [step, nextMove, h, hd]

/-- A host event waits for the completion step that can be held off no longer. -/
theorem step_of_due (s : State) (h : engineFirst s) : step s = .next (engineTurn s) := by
  obtain ⟨hd, e, rest, hi, he⟩ := h
  simp [step, nextMove, hi, hd, he]

theorem takeEvent_idle (e : Event) (rest : List Event) (s : State) (h : s.busy = false ∨ hostEvent e = false) :
    takeEvent e rest s = { s with inbox := rest } := by
  rcases h with h | h <;> simp [takeEvent, h]

theorem engineDue_idle (s : State) (h : s.busy = false) : engineDue s = false := by simp [engineDue, h]

/-- Every turn of the engine, whichever of the three ways it comes about. -/
theorem step_of_engine (s : State) (h : nextIsEngine s) :
    step s = .next (engineTurn { s with inbox := afterEngine s.inbox }) := by
  rcases h with h | ⟨rest, h⟩ | h
  · rw [step_of_empty s h]
    cases s
    cases h
    rfl
  · rw [step_of_event s _ rest h rfl, h, takeEvent_idle _ _ _ (.inr rfl)]
    rfl
  · rw [step_of_due s h]
    obtain ⟨-, e, rest, hi, he⟩ := h
    have : afterEngine s.inbox = s.inbox := by
      rw [hi]
      cases e <;> first | rfl | cases he
    rw [this]

theorem run_zero (s : State) : Host.Core.run core 0 s = .next s := rfl

theorem run_succ (k : Nat) (s t : State) (h : step s = .next t) :
    Host.Core.run core (k + 1) s = Host.Core.run core k t := by
  have hc : core.step s = .next t := h
  simp only [Host.Core.run, hc]

/-- An instruction leaves the inbox as it was. -/
theorem exec_inbox (i : Instr) (s t : State) (h : exec i s = .next t) : t.inbox = s.inbox := by
  rcases exec_cases i s t h with ⟨off, -, rfl | rfl⟩ | ⟨off, d, -, h4, rfl⟩ | ⟨off, d, -, rfl⟩ | ⟨-, rfl⟩ | ⟨-, rfl⟩ |
    ⟨-, rfl⟩
  · rfl
  · rfl
  · rw [respondWrite_inbox]
    rcases writeReg_cases d s off h4 with e | ⟨-, e⟩ | ⟨-, e⟩ | ⟨-, e⟩ | ⟨-, e⟩ | ⟨j, -, e⟩ <;> rw [e]
    · rfl
    · rfl
    · rcases runCommand_cases d s with ⟨-, e⟩ | ⟨-, e⟩ | ⟨-, e⟩ | ⟨-, -, -, e⟩ <;> rw [e]
      · exact unlessBusy_inbox _ _ rfl
      · exact unlessBusy_inbox _ _ rfl
      · rfl
    · exact unlessBusy_inbox _ _ rfl
    · exact unlessBusy_inbox _ _ rfl
  · rfl
  · rfl
  · exact unlessBusy_inbox _ _ rfl
  · exact unlessBusy_inbox _ _ rfl

/-- Everything a step can do. In the first case an instruction runs, in the second a request is answered with the
AccessFault, in the third an access misses the window; the last two are the engine's turn and the reset. -/
theorem step_cases (s t : State) (h : step s = .next t) :
    (∃ e rest i, s.inbox = e :: rest ∧ nextInstr s = some i ∧ exec i (takeEvent e rest s) = .next t) ∨
    (∃ e rest w, s.inbox = e :: rest ∧ nextInstr s = none ∧ t = accessFault w (takeEvent e rest s)) ∨
    (∃ e rest, s.inbox = e :: rest ∧ nextInstr s = none ∧ t = takeEvent e rest s) ∨
    (nextIsEngine s ∧ nextInstr s = none ∧ t = engineTurn { s with inbox := afterEngine s.inbox }) ∨
    (nextIsReset s ∧ nextInstr s = none ∧ t = platformReset { s with inbox := s.inbox.tail }) := by
  have viaEngine : nextIsEngine s → nextInstr s = none → nextIsEngine s ∧ nextInstr s = none ∧
      t = engineTurn { s with inbox := afterEngine s.inbox } := fun he hn => by
    refine ⟨he, hn, ?_⟩
    rw [step_of_engine s he] at h
    simpa using h.symm
  cases he : s.inbox with
  | nil => exact .inr (.inr (.inr (.inl (he ▸ viaEngine (.inl he) (by simp [nextInstr, he])))))
  | cons e rest =>
    cases hd : hostEvent e && engineDue s with
    | true =>
      rw [Bool.and_eq_true] at hd
      exact .inr (.inr (.inr (.inl (he ▸ viaEngine (.inr (.inr ⟨hd.2, e, rest, he, hd.1⟩))
        (by simp [nextInstr, he, hd.2])))))
    | false =>
      rw [step_of_event s e rest he hd] at h
      have viaRequest : ∀ r, hostEvent e = true → eventRequest e = some r → hostStep r (takeEvent e rest s) = .next t →
          (∃ e' rest' i, e :: rest = e' :: rest' ∧ nextInstr s = some i ∧ exec i (takeEvent e' rest' s) = .next t) ∨
          (∃ e' rest' w, e :: rest = e' :: rest' ∧ nextInstr s = none ∧ t = accessFault w (takeEvent e' rest' s)) := by
        intro r hh hr hs
        have hd' : engineDue s = false := by simpa [hh] using hd
        rcases hostStep_cases r _ t hs with ⟨i, hdec, hx⟩ | ⟨⟨er, hdec⟩, ht⟩
        · exact .inl ⟨e, rest, i, rfl, by simp [nextInstr, he, hd', eventInstr, hr, hdec], hx⟩
        · exact .inr ⟨e, rest, _, rfl, by simp [nextInstr, he, hd', eventInstr, hr, hdec], ht⟩
      cases e with
      | request r =>
        rcases viaRequest r rfl rfl h with c | c
        · exact .inl c
        · exact .inr (.inl c)
      | access a =>
        simp only [handleEvent, platformAccess] at h
        split at h
        · rename_i r hr
          rcases viaRequest r rfl hr h with c | c
          · exact .inl c
          · exact .inr (.inl c)
        · rename_i hr
          refine .inr (.inr (.inl ⟨_, rest, rfl, ?_, by simpa using h.symm⟩))
          simp [nextInstr, he, eventInstr, eventRequest, hr]
      | engine =>
        exact .inr (.inr (.inr (.inl (he ▸ viaEngine (.inr (.inl ⟨rest, he⟩))
          (by simp [nextInstr, he, eventInstr, eventRequest])))))
      | reset =>
        refine .inr (.inr (.inr (.inr ⟨⟨rest, he⟩, ?_, ?_⟩)))
        · simp [nextInstr, he, eventInstr, eventRequest]
        · rw [takeEvent_idle _ _ _ (.inr rfl)] at h
          simpa [handleEvent] using h.symm

end Sys2Proof.Machine
end

