-- ==== Sys2Proof/Tests/Slice0.lean ====
section
/-! SUPPORT. The model's own tests. Expected values are those of 95_test_vectors.md or of the rule named, never the
model's own answer. The second half holds one witness for each hypothesis of an obligation. -/

namespace Sys2Proof.Tests

open Sys2Proof.Machine Sys2Proof.Safety

set_option maxRecDepth 20000

/-! ### States and profiles the tests are about -/

/-- A raw profile written sparsely; every sample not listed is 0. -/
def profile (l : List (Nat × Nat)) : Vector Sample 224 :=
  Vector.ofFn fun j => BitVec.ofNat 16 ((l.lookup j.val).getD 0)

/-- A window written sparsely. -/
def window (l : List (Nat × Nat)) : List Nat := (List.range 131).map fun i => (l.lookup i).getD 0

/-- A peak of a list to be classified. -/
def peak (pos amp right : Nat) : EchoPeak := ⟨pos, amp, pos, right, amp, .unknown⟩

/-- A block with no run in progress, every sample 0 and LEN = 224, whose next run lets three host events pass. -/
def idle : State := { State.reset with samples := profile [], len := 224#8, patience := 3 }

/-- A block with a run in progress. -/
def running : State := { idle with busy := true }

/-- A block with a run in progress whose completion can be held off no longer. -/
def overdue : State := { running with patience := 0 }

/-- A block whose last run is complete, with irq asserted. -/
def finished : State := { idle with ie := true, done := true, errBusy := true, errCmd := true }

/-- What is presented next. -/
def presented (es : List Event) (s : State) : State := { s with inbox := es }

/-- A WR32 as an event. -/
def wr (off : Offset) (d : Word) : Event := .request (scriptWr off d)

/-- Result registers that are not the sentinel. -/
def stale : ResultRegs := { ResultRegs.reset with peakCount := 5#6 }

/-- The profile of Scenario B (W5). -/
def scenarioB : Vector Sample 224 := profile [(68, 1500), (148, 1200)]

/-! ### WellFormed and the decoder -/

theorem test_wf_rd32_misaligned : (Instr.rd32 0x022).wellFormed = false := by decide
theorem test_wf_wr32_misaligned : (Instr.wr32 0x011 7).wellFormed = false := by decide
theorem test_wf_wr32_command_word : (Instr.wr32 0x010 0x00000001).wellFormed = false := by decide
theorem test_wf_wr32_illegal_command : (Instr.wr32 0x010 0x00000101).wellFormed = true := by decide

/-- 2.1: 0x2FFC = 0 10 111111111100. -/
theorem test_decode_rd32 : decodeRequest ⟨0b010111111111100#15, 0#32⟩ = .ok (.rd32 0xFFC) := by rfl
/-- 2.1: 0x6014 = 1 10 000000010100. -/
theorem test_decode_wr32 : decodeRequest ⟨0b110000000010100#15, 171#32⟩ = .ok (.wr32 0x014 171) := by rfl
/-- R84, R89: `wr 0x010, 0x00000000`. -/
theorem test_decode_nop : decodeRequest ⟨0b110000000010000#15, 0x00000000#32⟩ = .ok .nop := by rfl
/-- R84, R89: `wr 0x010, 0x00000001`. -/
theorem test_decode_calibrate : decodeRequest ⟨0b110000000010000#15, 0x00000001#32⟩ = .ok .calibrate := by rfl
/-- R84, R89: `wr 0x010, 0x00000002`. -/
theorem test_decode_clear : decodeRequest ⟨0b110000000010000#15, 0x00000002#32⟩ = .ok .clear := by rfl
/-- R85: RSV ≠ 0 is no CALIBRATE. -/
theorem test_decode_reserved_bits : decodeRequest ⟨0x6010#15, 0x80000001#32⟩ = .ok (.wr32 0x010 0x80000001) := by rfl
/-- 2.1: 0x1020, 0x3020 and 0x6011 are AccessFaults. -/
theorem test_decode_access_faults :
    decodeRequest ⟨0x1020#15, 0#32⟩ = .error .size16 ∧ decodeRequest ⟨0x3020#15, 0#32⟩ = .error .sizeReserved ∧
    decodeRequest ⟨0x6011#15, 0#32⟩ = .error .misaligned := ⟨rfl, rfl, rfl⟩

/-- The words of the opcode table. -/
theorem test_table_words :
    decodeTableWord 16 0x2000 = some (.rd32 0) ∧ decodeTableWord 16 0x6000 = some (.wr32 0 0) ∧
    decodeTableWord 32 0x00000000 = some .nop ∧ decodeTableWord 32 0x00000001 = some .calibrate ∧
    decodeTableWord 32 0x00000002 = some .clear ∧ decodeTableWord 32 0x00000003 = none ∧
    decodeTableWord 16 0x2001 = none := by decide

/-- The first step after reset runs the word that was placed. -/
theorem test_fetch_word_calibrate :
    step (State.reset.withFetchWord 32 1) = .next { State.reset with busy := true, response := some ⟨.ok, none⟩ } := by
  rfl
theorem test_fetch_word_rd32 :
    step (State.reset.withFetchWord 16 0x2000) =
      .next { State.reset with response := some ⟨.ok, some 0x45504443⟩ } := by rfl

/-! ### One step of each instruction (2.2) -/

theorem test_rd32_edge_after_reset :
    exec (.rd32 0x020) State.reset = .next { State.reset with response := some ⟨.ok, some 0xFFFFFFFF⟩ } := by rfl
theorem test_rd32_last_sample :
    exec (.rd32 0xB7C) { idle with samples := Vector.replicate 224 0xFFFF#16 } =
      .next { idle with samples := Vector.replicate 224 0xFFFF#16, response := some ⟨.ok, some 0x0000FFFF⟩ } := by
  rfl
/-- STATUS = 0xE, `wr 0x00C, 0x4`, then STATUS = 0xA; `wr 0x014, 300` stores 44, bits[7:0] being taken before the
clamp. -/
theorem test_wr32_status_and_len :
    exec (.wr32 0x00C 4) finished = .next { finished with errBusy := false, response := some ⟨.ok, none⟩ } ∧
    exec (.wr32 0x014 300) idle = .next { idle with len := 44, response := some ⟨.ok, none⟩ } := ⟨rfl, rfl⟩
theorem test_nop_while_busy : exec .nop running = .next { running with response := some ⟨.ok, none⟩ } := by rfl
theorem test_calibrate_clears_done :
    exec .calibrate finished = .next { finished with busy := true, done := false, response := some ⟨.ok, none⟩ } := by
  rfl
theorem test_calibrate_while_busy :
    exec .calibrate running = .next { running with errBusy := true, response := some ⟨.ok, none⟩ } := by rfl
theorem test_clear_while_busy :
    exec .clear running = .next { running with errBusy := true, response := some ⟨.ok, none⟩ } := by rfl
/-- R111: CLEAR leaves the error bits, and the result registers become those of reset (R220). -/
theorem test_clear :
    exec .clear { finished with results := stale } =
      .next { finished with done := false, response := some ⟨.ok, none⟩ } := by
  have h : resultRegs sentinel = ResultRegs.reset := by decide +kernel
  show Host.Outcome.next _ = _
  simp [clearResults, unlessBusy, respondWrite, respond, finished, idle, State.reset, State.afterReset, h]
/-- BUSY = 1: `wr 0x010, 0x101` sets ERR_CMD only. -/
theorem test_illegal_command_while_busy :
    exec (.wr32 0x010 0x101) running = .next { running with errCmd := true, response := some ⟨.ok, none⟩ } := by rfl

/-- R230: a request waits for a completion that can be held off no longer, and a run otherwise lets it pass. -/
theorem test_overdue_completes_first :
    (∃ t, step (presented [wr 0x800 7] overdue) = .next t ∧ t.busy = false ∧ t.done = true ∧
      t.inbox = [wr 0x800 7]) ∧
    (∃ t, step (presented [wr 0x800 7] running) = .next t ∧ t.busy = true ∧ t.errBusy = true ∧ t.patience = 2) :=
  ⟨⟨_, rfl, rfl, rfl, rfl⟩, _, rfl, rfl, rfl, rfl⟩

/-- A word placed while the completion is overdue is still the next one run. -/
theorem test_fetch_word_overdue :
    step (overdue.withFetchWord 32 0) = .next { overdue with response := some ⟨.ok, none⟩ } := by rfl

/-! ### The stages of Calibrate (2.3 to 2.8) -/

theorem test_smooth_ends :
    (smooth (window [(0, 65535), (1, 65535), (2, 65535), (130, 7)])).take 6 = [65535, 49151, 39321, 26214, 13107, 0] ∧
    (smooth (window [(0, 1), (130, 7)])).drop 128 = [1, 1, 2] := by decide +kernel

theorem test_detect_bounds :
    detect (window [(1, 100), (2, 300), (3, 300), (4, 200), (5, 95), (6, 90), (7, 400), (8, 226), (9, 225)]) =
      [⟨2, 300, 1, 5, 300, .unknown⟩, ⟨7, 400, 7, 9, 400, .unknown⟩] := by decide +kernel

theorem test_detect_last_index :
    detect (window [(1, 230), (2, 100), (128, 200), (129, 240), (130, 240)]) =
      [⟨1, 230, 1, 2, 230, .unknown⟩, ⟨129, 240, 128, 130, 240, .unknown⟩] := by decide +kernel

theorem test_merge_representative :
    merge [⟨28, 700, 24, 29, 700, .unknown⟩, ⟨30, 580, 29, 31, 340, .unknown⟩, ⟨32, 640, 29, 34, 580, .unknown⟩] =
      [⟨28, 700, 24, 31, 700, .unknown⟩, ⟨32, 640, 29, 34, 580, .unknown⟩] := by decide

theorem test_merge_exact_ratio_and_prominence :
    merge [peak 42 700 43, peak 44 1000 45] = [peak 42 700 43, peak 44 1000 45] ∧
    merge [⟨10, 300, 9, 12, 59, .unknown⟩, peak 50 300 54] = [peak 50 300 54] := by decide

/-- T17: a peak exactly at the limit is not the Liquid; T10: no peak is beyond it. -/
theorem test_liquid_index :
    liquidIndex [peak 18 300 22, peak 63 400 67, peak 118 260 122] = 2 ∧
    liquidIndex [peak 18 300 22, peak 58 260 62, peak 88 400 92, peak 118 280 122] = 2 ∧
    liquidIndex [peak 110 300 112, peak 114 780 115, peak 117 1200 122] = 2 := by decide

/-- W5, the source's Scenario B, at the limit LEN = 171 (T2). -/
theorem test_scenario_b :
    calibrate scenarioB 171 = ⟨66, 146, 345, 73, 300, 144, false,
      [⟨66, 300, 66, 70, 300, .edge⟩, ⟨146, 240, 146, 150, 240, .liquid⟩]⟩ := by decide +kernel

/-- T12, its window in local coordinates: smoothing at the window end, and the local default of 152. -/
theorem test_far_default :
    analyse (smooth (window [(15, 800), (16, 800), (127, 2000)])) = ⟨54, 169, 460, 166, 300, 167, true,
      [⟨54, 320, 53, 58, 320, .edge⟩, ⟨165, 400, 165, 168, 400, .interference⟩,
       ⟨169, 500, 165, 169, 500, .liquid⟩]⟩ := by decide +kernel

/-- T13: the boundaries are swapped. -/
theorem test_swap :
    analyse (smooth (window [(41, 900), (43, 1500), (47, 300), (49, 300), (110, 1500)])) =
      ⟨81, 148, 552, 86, 432, 87, false,
        [⟨81, 480, 79, 84, 480, .edge⟩, ⟨85, 360, 84, 85, 300, .interference⟩,
         ⟨148, 300, 148, 152, 300, .liquid⟩]⟩ := by decide +kernel

/-- T14: extension, the far search, and equal boundaries. -/
theorem test_extension :
    analyse (smooth (window [(26, 1500), (30, 2000), (32, 900), (34, 300), (110, 1500)])) = ⟨64, 148, 805, 74, 768, 75, true,
      [⟨64, 300, 64, 67, 300, .edge⟩, ⟨68, 700, 64, 71, 700, .interference⟩,
       ⟨72, 640, 69, 74, 580, .interference⟩, ⟨148, 300, 148, 152, 300, .liquid⟩]⟩ := by decide +kernel

/-- T15: 43 qualifying indices, of which the first 32 are kept. -/
theorem test_cap :
    (detect (smooth (window ((List.range 44).map fun k => (3 * k, 1500))))).map (fun p => p.position) =
      (List.range 32).map fun k => 1 + 3 * k := by decide +kernel

/-! ### Witnesses of the statements' hypotheses -/

theorem test_witness_DecoderFollowsMatchAndMask :
    (0x2FFC#15 &&& 0x7003#15 = 0x2000#15) ∧ (0x6FFC#15 &&& 0x7003#15 = 0x6000#15 ∧ 0x6FFC#15 ≠ 0x6010#15) ∧
    (0x3020#15 &&& 0x7003#15 ≠ 0x2000#15 ∧ 0x3020#15 &&& 0x7003#15 ≠ 0x6000#15) ∧
    (0x6011#15 &&& 0x7003#15 ≠ 0x2000#15 ∧ 0x6011#15 &&& 0x7003#15 ≠ 0x6000#15) := by decide

theorem test_witness_DecodeOfEncode :
    (Instr.rd32 0xFFC).wellFormed = true ∧ (Instr.wr32 0xFFC 0xFFFFFFFF).wellFormed = true ∧
    (Instr.wr32 0x010 3).wellFormed = true ∧ Instr.nop.wellFormed = true ∧ Instr.calibrate.wellFormed = true ∧
    Instr.clear.wellFormed = true := by decide

theorem test_witness_EncodeOfDecode :
    decodeRequest ⟨0x2000#15, 5#32⟩ = .ok (.rd32 0) ∧
    (decodeRequest ⟨0x6FFC#15, 5#32⟩ = .ok (.wr32 0xFFC 5) ∧ (0x6FFC#15).getLsbD 14 = true) := ⟨rfl, rfl, rfl⟩

theorem test_witness_StepRunsDecodedInstruction :
    (presented [wr 0x010 1] idle).inbox = .request (scriptWr 0x010 1) :: [] ∧
    decodeRequest (scriptWr 0x010 1) = .ok .calibrate ∧ engineDue (presented [wr 0x010 1] idle) = false ∧
    engineDue (presented [wr 0x010 1] overdue) = true := ⟨rfl, rfl, rfl, rfl⟩

theorem test_witness_AccessFaultAnswersError :
    (presented [.request ⟨0x5014#15, 0#32⟩] running).inbox = .request ⟨0x5014#15, 0#32⟩ :: [] ∧
    engineDue (presented [.request ⟨0x5014#15, 0#32⟩] running) = false ∧
    (0x5014#15).extractLsb' 12 2 ≠ 0b10#2 ∧ (0x0020#15).extractLsb' 12 2 ≠ 0b10#2 ∧
    (0x3020#15).extractLsb' 12 2 ≠ 0b10#2 ∧ (0x2023#15).extractLsb' 0 2 ≠ 0b00#2 := by
  exact ⟨rfl, rfl, by decide, by decide, by decide, by decide⟩

theorem test_witness_WindowDecidesWhatReachesTheBlock :
    (∃ s : State, engineDue s = false ∧ s.busy = true ∧
      s.inbox = .access ⟨true, 0b10#2, Config.base + (0x000 : Offset).toNat, 7#32⟩ :: []) ∧
    (∃ s : State, engineDue s = false ∧
      s.inbox = .access ⟨false, 0b00#2, Config.base + (0xFFF : Offset).toNat, 7#32⟩ :: []) ∧
    (∃ (s : State) (a : PlatformAccess), engineDue s = false ∧ s.inbox = .access a :: [] ∧
      (a.addr < Config.base ∨ Config.base + 0xFFF < a.addr)) :=
  ⟨⟨presented _ running, rfl, rfl, rfl⟩, ⟨presented _ idle, rfl, rfl⟩,
    ⟨presented _ idle, ⟨true, 0b10#2, Config.base + 0x1000, 7#32⟩, rfl, rfl, .inr (by simp)⟩⟩

theorem test_witness_ReservedOffsetsReadZero :
    [0x018, 0x01C, 0x040, 0x3FC, 0xB80, 0xFFC].all (fun off : Offset => decide (off.toNat % 4 = 0 ∧
      (off.toNat = 0x018 ∨ off.toNat = 0x01C ∨ (0x040 ≤ off.toNat ∧ off.toNat ≤ 0x3FC) ∨ 0xB80 ≤ off.toNat)))
      = true := by decide

theorem test_witness_WriteToReadOnlyIsIgnored :
    [0x000, 0x004, 0x018, 0x01C, 0x020, 0x03C, 0x040, 0x3FC, 0x400, 0x7FC, 0xB80, 0xFFC].all (fun off : Offset =>
      decide (off.toNat % 4 = 0 ∧ (off.toNat = 0x000 ∨ off.toNat = 0x004 ∨ off.toNat = 0x018 ∨ off.toNat = 0x01C ∨
        (0x020 ≤ off.toNat ∧ off.toNat ≤ 0x03C) ∨ (0x040 ≤ off.toNat ∧ off.toNat ≤ 0x3FC) ∨
        (0x400 ≤ off.toNat ∧ off.toNat ≤ 0x7FC) ∨ 0xB80 ≤ off.toNat))) = true := by decide

/-- Both cases of WriteLenClampsOrIsRefused, WriteSampleStoresOrIsRefused, CalibrateStartsOrIsRefused and
ClearWritesSentinelOrIsRefused. -/
theorem test_witness_idle_and_running : idle.busy = false ∧ running.busy = true := ⟨rfl, rfl⟩

theorem test_witness_SampleWriteChangesItsBytesOnly :
    (∃ t, exec (.wr32 (sampleOffset 0) 0x12345) idle = .next t) ∧ idle.busy = false ∧
    (∃ t, exec (.wr32 (sampleOffset 223) 0x12345) running = .next t) ∧ running.busy = true :=
  ⟨⟨_, rfl⟩, rfl, ⟨_, rfl⟩, rfl⟩

theorem test_witness_MisalignedTermsAnswerAccessFault :
    (0x001#12).toNat % 4 ≠ 0 ∧ (0x022#12).toNat % 4 ≠ 0 ∧ (0xFFF#12).toNat % 4 ≠ 0 := by decide

/-- The three ways the engine's turn comes about, while BUSY = 1 and while it is 0. -/
theorem test_witness_CompletionWritesTheResult :
    (nextIsEngine running ∧ running.busy = true) ∧
    (nextIsEngine (presented [.engine] running) ∧ (presented [.engine] running).busy = true) ∧
    (nextIsEngine (presented [wr 0x800 7] overdue) ∧ (presented [wr 0x800 7] overdue).busy = true) ∧
    (nextIsEngine (presented [.engine] idle) ∧ (presented [.engine] idle).busy = false) :=
  ⟨⟨.inl rfl, rfl⟩, ⟨.inr (.inl ⟨_, rfl⟩), rfl⟩, ⟨.inr (.inr ⟨rfl, _, _, rfl, rfl⟩), rfl⟩, .inr (.inl ⟨_, rfl⟩), rfl⟩

theorem test_witness_BusyAndDoneChange_set :
    (∃ s t, step s = .next t ∧ s.busy = false ∧ t.busy = true) ∧
    (∃ s t, step s = .next t ∧ s.done = false ∧ t.done = true) :=
  ⟨⟨presented [wr 0x010 1] idle, _, rfl, rfl, rfl⟩, ⟨presented [.engine] running, _, rfl, rfl, rfl⟩⟩

theorem test_witness_BusyAndDoneChange_clear :
    (∃ t, step running = .next t ∧ running.busy = true ∧ t.busy = false) ∧
    (∀ e ∈ [Event.reset, wr 0x010 1, wr 0x010 2, wr 0x00C 2], ∃ t,
      step (presented [e] finished) = .next t ∧ (presented [e] finished).done = true ∧ t.done = false) := by
  refine ⟨⟨_, rfl, rfl, rfl⟩, fun e he => ?_⟩
  fin_cases he <;> exact ⟨_, rfl, rfl, rfl⟩

theorem test_witness_ErrorBitsChange_set :
    (∀ e ∈ [wr 0x010 1, wr 0x010 2, wr 0x014 200, wr 0x800 7, wr 0xB7C 7], ∃ t,
      step (presented [e] running) = .next t ∧ (presented [e] running).errBusy = false ∧ t.errBusy = true) ∧
    (∃ s t, step s = .next t ∧ s.errCmd = false ∧ t.errCmd = true) := by
  refine ⟨fun e he => ?_, ⟨presented [wr 0x010 3] running, _, rfl, rfl, rfl⟩⟩
  fin_cases he <;> exact ⟨_, rfl, rfl, rfl⟩

theorem test_witness_ErrorBitsChange_clear :
    (∃ s t, step s = .next t ∧ s.errBusy = true ∧ t.errBusy = false) ∧
    (∃ s t, step s = .next t ∧ s.errCmd = true ∧ t.errCmd = false) :=
  ⟨⟨presented [wr 0x00C 4] finished, _, rfl, rfl, rfl⟩, ⟨presented [.reset] finished, _, rfl, rfl, rfl⟩⟩

theorem test_witness_OneErrorPerRequest :
    ∃ (s t : State) (r : Request), s.inbox = .request r :: [] ∧ step s = .next t ∧ (∃ d, t.response = some ⟨.err, d⟩) :=
  ⟨presented [.request ⟨0x5014#15, 0#32⟩] running, _, _, rfl, rfl, _, rfl⟩

theorem test_witness_ResultsChange :
    ∀ se ∈ [({ running with len := 0, results := stale }, Event.engine), ({ idle with results := stale }, wr 0x010 2),
        ({ running with results := stale }, Event.reset)],
      ∃ t, step (presented [se.2] se.1) = .next t ∧ t.results ≠ (presented [se.2] se.1).results := by
  have h1 : (resultRegs (calibrate (profile []) 0)).peakCount ≠ stale.peakCount := by decide
  have h2 : (resultRegs sentinel).peakCount ≠ stale.peakCount := by decide
  have h3 : ResultRegs.reset.peakCount ≠ stale.peakCount := by decide
  intro se he
  simp only [List.mem_cons, List.not_mem_nil, or_false] at he
  rcases he with rfl | rfl | rfl
  · exact ⟨_, rfl, fun h => h1 (congrArg ResultRegs.peakCount h)⟩
  · exact ⟨_, rfl, fun h => h2 (congrArg ResultRegs.peakCount h)⟩
  · exact ⟨_, rfl, fun h => h3 (congrArg ResultRegs.peakCount h)⟩

theorem test_witness_InputsAreFrozenWhileBusy :
    ∃ s t, s.busy = true ∧ ¬ nextIsReset s ∧ step s = .next t := by
  refine ⟨presented [wr 0x014 5] running, _, rfl, ?_, rfl⟩
  rintro ⟨_, h⟩
  cases h

theorem test_witness_IrqRisesAndFalls :
    (∃ s t, step s = .next t ∧ irq s = true ∧ irq t = false) ∧
    (∃ s t, step s = .next t ∧ irq s = false ∧ irq t = true) :=
  ⟨⟨presented [wr 0x008 0] finished, _, rfl, rfl, rfl⟩,
    ⟨presented [.engine] { running with ie := true }, _, rfl, rfl, rfl⟩⟩

theorem test_witness_ResetGivesTabulatedValues : (presented [.reset] finished).inbox = .reset :: [] := rfl

theorem test_witness_ResetAbortsTheRun :
    let es := [wr 0x010 0, wr 0x010 2, .engine, wr 0x800 7]
    (presented (.reset :: (es ++ [wr 0x010 1])) running).busy = true ∧
    (presented (.reset :: (es ++ [wr 0x010 1])) running).inbox = .reset :: (es ++ [wr 0x010 1]) ∧
    ∀ e ∈ es, e ≠ .reset ∧ eventInstr e ≠ some .calibrate := ⟨rfl, rfl, by decide⟩

theorem test_witness_ShortProfileGivesSentinel : (0 : Nat) < 171 ∧ 170 < 171 := by decide

theorem test_witness_SamplesOutsideTheWindow :
    ∃ S S' : Vector Sample 224, S[39] ≠ S'[39] ∧ S[171] ≠ S'[171] ∧ 171 ≤ 171 ∧ 171 ≤ 224 ∧
      ∀ j : Fin 224, 40 ≤ j.val → j.val ≤ 170 → S[j] = S'[j] := by
  refine ⟨Vector.replicate 224 5#16, ((Vector.replicate 224 5#16).set 39 9).set 171 9, by decide, by decide, by decide,
    by decide, fun j h1 h2 => ?_⟩
  have h : ¬ 171 = j.val ∧ ¬ 39 = j.val := by omega
  simp [h.1, h.2]

theorem test_witness_Smooth :
    (window [(0, 9), (130, 7)]).length = 131 ∧ (∀ k, k < 131 → sampleAt (window [(0, 9), (130, 7)]) k ≤ 9) ∧
    0 < 131 ∧ 130 < 131 := by decide +kernel

/-- Of a member of detect's list. -/
theorem test_witness_Prominence :
    (window [(1, 230)]).length = 131 ∧ (⟨1, 230, 1, 1, 230, .unknown⟩ : EchoPeak) ∈ detect (window [(1, 230)]) := by
  decide +kernel

/-- Of a member of merge's list. -/
theorem test_witness_Merged :
    (⟨1, 230, 1, 1, 230, .unknown⟩ : EchoPeak) ∈ merge (detect (window [(1, 230)])) := by decide +kernel

/-- Of the merge walk: a mergeable pair, one that is not with a prominence to be kept, and one with a prominence to be
dropped, each in ascending order. -/
theorem test_witness_MergeWalk :
    (mergeable (peak 47 600 49) (peak 50 840 55) = true ∧ Ascending [peak 47 600 49, peak 50 840 55]) ∧
    (mergeable (peak 42 700 43) (peak 44 1000 45) = false ∧ 60 ≤ (peak 42 700 43).prominence ∧
      Ascending [peak 42 700 43, peak 44 1000 45]) ∧
    (mergeable ⟨10, 300, 9, 12, 59, .unknown⟩ (peak 50 300 54) = false ∧
      Ascending [⟨10, 300, 9, 12, 59, .unknown⟩, peak 50 300 54]) := by
  unfold Ascending
  decide

theorem test_witness_LeftRightBound : (0 : Nat) ≤ 130 ∧ (130 : Nat) ≤ 130 ∧
    leftBound (window [(1, 230)]) 1 ≤ 1 ∧ rightBound (window [(128, 99), (129, 99), (130, 99)]) 128 = 130 := by
  decide +kernel

/-- The peaks of T9 (a Liquid beyond the limit) and of T10 (none beyond it). -/
def peaksT9 : List EchoPeak := [peak 18 300 22, peak 58 260 62, peak 88 400 92, peak 118 280 122]
def peaksT10 : List EchoPeak := [peak 110 300 112, peak 114 780 115, peak 117 1200 122]

theorem test_witness_Classify : 2 ≤ [peak 26 300 30, peak 106 240 110].length ∧ 2 ≤ peaksT9.length := by decide

theorem test_witness_Liquid :
    [peak 26 300 30, peak 106 240 110].length = 2 ∧
    (3 ≤ peaksT9.length ∧ (peakAt peaksT9 0).position ≤ 130 ∧
      ∃ k, 1 ≤ k ∧ k < peaksT9.length ∧
        (peakAt peaksT9 0).position + (131 - (peakAt peaksT9 0).position) * 40 / 100 < (peakAt peaksT9 k).position) ∧
    (3 ≤ peaksT10.length ∧ (peakAt peaksT10 0).position ≤ 130 ∧
      ¬ ∃ k, 1 ≤ k ∧ k < peaksT10.length ∧
        (peakAt peaksT10 0).position + (131 - (peakAt peaksT10 0).position) * 40 / 100 <
          (peakAt peaksT10 k).position) := by
  refine ⟨by decide, ⟨by decide, by decide, 3, by decide⟩, by decide, by decide, ?_⟩
  have h : ∀ k, k < peaksT10.length → ¬ (1 ≤ k ∧
      (peakAt peaksT10 0).position + (131 - (peakAt peaksT10 0).position) * 40 / 100 <
        (peakAt peaksT10 k).position) := by decide
  exact fun ⟨k, h1, h2, h3⟩ => h k h2 ⟨h1, h3⟩

/-- The peaks of T14, classified: an extension. -/
def peaksT14 : List EchoPeak :=
  classify [peak 24 300 27, peak 28 700 31, peak 32 640 34, peak 108 300 112]

theorem test_witness_EdgeCluster_extended :
    let between (q : EchoPeak) := q ∈ peaksT14 ∧ q.role = .interference ∧
      (peakAt peaksT14 0).position < q.position ∧ q.position < (peakAt peaksT14 3).position
    Ascending peaksT14 ∧ between (peakAt peaksT14 1) ∧
    (peakAt peaksT14 0).amplitude ≤ (peakAt peaksT14 1).amplitude ∧
    (∀ q, between q → q.amplitude ≤ (peakAt peaksT14 1).amplitude) ∧
    (∀ q, between q → q.amplitude = (peakAt peaksT14 1).amplitude → (peakAt peaksT14 1).position ≤ q.position) := by
  have h1 : ∀ q ∈ peaksT14, q.amplitude ≤ (peakAt peaksT14 1).amplitude := by decide
  have h2 : ∀ q ∈ peaksT14, q.amplitude = (peakAt peaksT14 1).amplitude →
      (peakAt peaksT14 1).position ≤ q.position := by decide
  have h0 : peaksT14.Pairwise fun p q => p.position < q.position := by decide
  exact ⟨h0, by decide, by decide, fun q h => h1 q h.1, fun q h => h2 q h.1⟩

theorem test_witness_EdgeCluster_plain :
    (classify peaksT9).any (fun q => q.role == .interference && decide (18 < q.position) &&
      decide (q.position < 88)) = true ∧
    ∀ q, (q ∈ classify peaksT9 ∧ q.role = .interference ∧ (peakAt (classify peaksT9) 0).position < q.position ∧
      q.position < (peakAt (classify peaksT9) 2).position) →
      q.amplitude < (peakAt (classify peaksT9) 0).amplitude := by
  have h : ∀ q ∈ classify peaksT9, q.position < (peakAt (classify peaksT9) 2).position →
      (peakAt (classify peaksT9) 0).position < q.position →
      q.amplitude < (peakAt (classify peaksT9) 0).amplitude := by decide
  exact ⟨by decide, fun q ⟨hm, _, h1, h2⟩ => h q hm h2 h1⟩

/-- T11: the run at local 100 before L = 116; and no run from 127 on before L = 129. -/
theorem test_witness_FarBoundary :
    let s := window [(96, 240), (97, 240), (98, 240), (99, 240), (100, 240)]
    let quiet (L q : Nat) := q + 2 < L ∧ sampleAt s q < 250 ∧ sampleAt s (q + 1) < 250 ∧ sampleAt s (q + 2) < 250
    (quiet 116 100 ∧ ∀ q', 100 ≤ q' → q' < 100 → ¬ quiet 116 q') ∧
    (∀ q, 127 ≤ q → ¬ quiet 129 q) := by
  refine ⟨⟨by decide +kernel, fun q' h1 h2 => absurd h2 (by omega)⟩, fun q h hq => ?_⟩
  have := hq.1
  omega

theorem test_extract_window : extractWindow scenarioB = window [(28, 1500), (108, 1200)] := by decide +kernel

theorem test_witness_Pipeline :
    171 ≤ 171 ∧ 2 ≤ (merge (detect (smooth (extractWindow scenarioB)))).length ∧
    (let M := merge (detect (smooth (extractWindow scenarioB)))
     (edgeCluster (classify M) (liquidIndex M)).far = []) := by
  rw [test_extract_window]
  decide +kernel

/-- The profile of T11, whose far set is not empty. -/
def profileT11 : Vector Sample 224 :=
  profile [(73, 2000), (74, 2000), (75, 2000), (76, 2000), (138, 1200), (154, 800), (155, 800), (156, 800), (157, 800),
    (158, 800)]

theorem test_witness_Pipeline_far :
    let M := merge (detect (smooth (extractWindow profileT11)))
    2 ≤ M.length ∧ (edgeCluster (classify M) (liquidIndex M)).far ≠ [] := by decide +kernel

/-- Entries 0 and 1 hold peaks and entries 2 and 31 are unused. -/
theorem test_witness_RegistersHoldTheResult :
    1 < (calibrate scenarioB 171).peaks.length ∧ (calibrate scenarioB 171).peaks.length ≤ 2 := by
  rw [test_scenario_b]
  decide

/-- The result registers of Scenario B (W5). -/
def reportB : ResultRegs :=
  { edgePos := 0x42, liqPos := 0x92, thrNear := 0x159, bndNear := 0x49, thrFar := 0x12C, bndFar := 0x90
    edgeExt := false, noContainer := false, peakCount := 2
    peaks := ((Vector.replicate 32 PeakEntry.zero).set 0 ⟨0x42, 0x12C, 0x42, 0x46, 0x12C, .edge⟩).set 1
      ⟨0x92, 0xF0, 0x92, 0x96, 0xF0, .liquid⟩ }

theorem test_scenario_b_registers : resultRegs (calibrate scenarioB 171) = reportB := by
  rw [test_scenario_b]
  decide +kernel

/-- The registers of Scenario B are a legal report. -/
theorem test_witness_Inv_report : ReportLegal reportB := by
  refine ⟨?_, ?_, ?_, ?_, ?_, ?_, ?_, ?_, ?_, ?_, ?_, ?_⟩ <;> decide +kernel

/-- Of the invariant of a block that reports a container. -/
theorem test_witness_EveryStepKeepsInv :
    Inv { idle with results := reportB } ∧ ∃ t, step { idle with results := reportB } = .next t :=
  ⟨⟨fun h => (by cases h), by decide, fun h => (by cases h), fun _ => test_witness_Inv_report⟩, _, rfl⟩

/-- A host that never stops: it writes a sample in every step. -/
def endlessHost : Environment := fun _ _ => [wr 0x800 7]

theorem test_witness_endless_host :
    running.busy = true ∧ overdue.busy = true ∧ ∀ k u, ∀ e ∈ endlessHost k u, e ≠ .reset := by
  refine ⟨rfl, rfl, fun k u e he => ?_⟩
  rw [endlessHost, List.mem_singleton] at he
  exact he ▸ Event.noConfusion

theorem test_witness_ResultIsThatOfTheSnapshot :
    let s := presented [wr 0x800 7, wr 0x800 8, wr 0x800 9, .engine] running
    s.busy = true ∧ s.inbox = [wr 0x800 7, wr 0x800 8, wr 0x800 9] ++ .engine :: [] ∧
    (∀ e ∈ [wr 0x800 7, wr 0x800 8, wr 0x800 9], hostEvent e = true) ∧ 3 ≤ s.patience := ⟨rfl, rfl, by decide, le_refl _⟩

theorem test_witness_EveryRunCompletes :
    ∃ s : State, s.busy = true ∧ s.inbox = [wr 0x00C 2] ∧ ∀ e ∈ s.inbox, e ≠ .reset :=
  ⟨presented [wr 0x00C 2] running, rfl, rfl, by decide⟩

theorem test_witness_BothOrders :
    (running.busy = true ∧ running.errBusy = false ∧ running.patience ≠ 0) ∧
    (overdue.busy = true ∧ overdue.errBusy = false ∧ overdue.patience = 0) := ⟨⟨rfl, rfl, by decide⟩, rfl, rfl, rfl⟩

theorem test_witness_StatusReadAfterCalibrate :
    (idle.busy = false ∧ idle.patience ≠ 0) ∧
    (({ idle with patience := 0 } : State).busy = false ∧ ({ idle with patience := 0 } : State).patience = 0) :=
  ⟨⟨rfl, by decide⟩, rfl, rfl⟩

end Sys2Proof.Tests
end

/-! PROOFS. The ranges of the algorithm's quantities, stage by stage (00_scope.md R8, R9): a sample is at most 65535 and
every local coordinate at most 130, so every field of a result fits the register that holds it. -/

namespace Sys2Proof.Proofs

open Sys2Proof Sys2Proof.Machine

/-! ### Ranges as predicates -/

/-- A peak record in local coordinates within the window, its heights within a sample's width (00_scope.md R9, R12). -/
structure PeakInRange (p : EchoPeak) : Prop where
  position_le   : p.position ≤ 129
  amplitude_le  : p.amplitude ≤ 65535
  leftBound_le  : p.leftBound ≤ 130
  rightBound_le : p.rightBound ≤ 130
  prominence_le : p.prominence ≤ 65535

/-- The ranges of a result's fields, the sentinel among them: raw coordinates are offset by 40, and the thresholds are
65535 scaled by 1.15 and 1.2 at most (45_thresholds.md R160 to R165). -/
structure ResultInRange (R : ThresholdResult) : Prop where
  edgePosition   : -1 ≤ R.edgePosition ∧ R.edgePosition ≤ 169
  liquidPosition : -1 ≤ R.liquidPosition ∧ R.liquidPosition ≤ 169
  thresholdNear  : 0 ≤ R.thresholdNear ∧ R.thresholdNear ≤ 75365
  boundaryNear   : 0 ≤ R.boundaryNear ∧ R.boundaryNear ≤ 168
  thresholdFar   : 0 ≤ R.thresholdFar ∧ R.thresholdFar ≤ 78642
  boundaryFar    : 0 ≤ R.boundaryFar ∧ R.boundaryFar ≤ 168
  count_le       : R.peaks.length ≤ 32
  peaks          : ∀ p ∈ R.peaks, ∃ q, PeakInRange q ∧ p = rawPeak q

/-! ### Window and smoothing -/

theorem rawSample_le (S : Vector Sample 224) (j : Nat) : rawSample S j ≤ 65535 :=
  Nat.le_of_lt_succ (BitVec.isLt _)

theorem extractWindow_le (S : Vector Sample 224) : ∀ x ∈ extractWindow S, x ≤ 65535 := by
  intro x hx
  obtain ⟨i, -, rfl⟩ := List.mem_map.mp hx
  exact rawSample_le S _

theorem slice_length_le (s : List Nat) (lo hi : Nat) : (slice s lo hi).length ≤ hi + 1 - lo :=
  List.length_take_le _ _

theorem mem_of_mem_slice {s : List Nat} {lo hi x : Nat} (h : x ∈ slice s lo hi) : x ∈ s :=
  List.mem_of_mem_drop (List.mem_of_mem_take h)

/-- A mean of samples is no greater than a bound on all of them. -/
theorem smoothAt_le (half : Nat) (w : List Nat) (B i : Nat) (hw : ∀ x ∈ w, x ≤ B) : smoothAt half w i ≤ B := by
  let lo := i - half
  let hi := min (Params.winLen - 1) (i + half)
  have hlen : (slice w lo hi).length ≤ hi - lo + 1 := (slice_length_le w lo hi).trans (by omega)
  apply Nat.div_le_of_le_mul
  calc (slice w lo hi).sum
      ≤ (slice w lo hi).length * B := List.sum_le_card_nsmul _ _ fun x hx => hw x (mem_of_mem_slice hx)
    _ ≤ (hi - lo + 1) * B := Nat.mul_le_mul_right B hlen

theorem smooth_le (w : List Nat) (B : Nat) (hw : ∀ x ∈ w, x ≤ B) : ∀ x ∈ smooth w, x ≤ B := by
  intro x hx
  obtain ⟨i, -, rfl⟩ := List.mem_map.mp hx
  exact smoothAt_le _ w B i hw

theorem sampleAt_le (s : List Nat) (B i : Nat) (hs : ∀ x ∈ s, x ≤ B) : sampleAt s i ≤ B := by
  by_cases hi : i < s.length
  · rw [sampleAt, List.getD_eq_getElem _ _ hi]
    exact hs _ (List.getElem_mem hi)
  · rw [sampleAt, List.getD_eq_default _ _ (Nat.le_of_not_lt hi)]
    exact Nat.zero_le B

/-- R9: a smoothed sample is a 16-bit value. -/
theorem sampleAt_smooth_le (S : Vector Sample 224) (i : Nat) : sampleAt (smooth (extractWindow S)) i ≤ 65535 :=
  sampleAt_le _ _ i (smooth_le _ _ (extractWindow_le S))

/-! ### Detection -/

theorem leftBound_le (s : List Nat) (l : Nat) : leftBound s l ≤ l := by
  induction l with
  | zero => exact Nat.le_refl 0
  | succ l ih =>
    unfold leftBound
    split
    · exact ih.trans (Nat.le_succ l)
    · exact Nat.le_refl _

theorem rightWalk_le (s : List Nat) (n r : Nat) : rightWalk s n r ≤ r + n := by
  induction n generalizing r with
  | zero => exact Nat.le_refl r
  | succ n ih =>
    unfold rightWalk
    split
    · exact (ih (r + 1)).trans (by omega)
    · omega

theorem rightBound_le (s : List Nat) (r : Nat) (hr : r ≤ 130) : rightBound s r ≤ 130 :=
  (rightWalk_le s (130 - r) r).trans (by omega)

theorem prominence_le (s : List Nat) (i l r : Nat) : prominence s i l r ≤ sampleAt s i := Nat.sub_le _ _

theorem candidateRecord_inRange (s : List Nat) (i : Nat) (hs : ∀ k, sampleAt s k ≤ 65535) (hi : i ≤ 129) :
    PeakInRange (candidateRecord s i) where
  position_le   := hi
  amplitude_le  := hs i
  leftBound_le  := (leftBound_le s i).trans (by omega)
  rightBound_le := rightBound_le s i (by omega)
  prominence_le := (prominence_le s i _ _).trans (hs i)

/-- The detection holds the records of the first 32 candidates of 1..129, in order. -/
theorem detect_eq (s : List Nat) :
    detect s = (((List.range' 1 129).filter (candidate s)).take 32).map (candidateRecord s) :=
  scan_eq s _ [] (Nat.zero_le 32)

theorem detect_length_le (s : List Nat) : (detect s).length ≤ 32 := by
  rw [detect_eq, List.length_map]
  exact List.length_take_le _ _

theorem detect_inRange (s : List Nat) (hs : ∀ k, sampleAt s k ≤ 65535) : ∀ p ∈ detect s, PeakInRange p := by
  intro p hp
  rw [detect_eq] at hp
  obtain ⟨i, hi, rfl⟩ := List.mem_map.mp hp
  have hmem : i ∈ List.range' 1 129 := (List.mem_filter.mp (List.mem_of_mem_take hi)).1
  have hbounds := List.mem_range'_1.mp hmem
  exact candidateRecord_inRange s i hs (by omega)

/-! ### Merging -/

theorem insertByPosition_perm (p : EchoPeak) (L : List EchoPeak) : (insertByPosition p L).Perm (p :: L) := by
  induction L with
  | nil => exact List.Perm.refl _
  | cons q L ih =>
    unfold insertByPosition
    split
    · exact List.Perm.refl _
    · exact (ih.cons q).trans (List.Perm.swap p q L)

theorem sortByPosition_perm (C : List EchoPeak) : (sortByPosition C).Perm C := by
  induction C with
  | nil => exact List.Perm.refl _
  | cons p C ih => exact (insertByPosition_perm p _).trans (ih.cons p)

theorem emit_length_le (cl : EchoPeak) : (emit cl).length ≤ 1 := by
  unfold emit
  split
  · exact Nat.le_refl 1
  · exact Nat.zero_le 1

theorem mergeWalk_length_le (C : List EchoPeak) (cl : EchoPeak) : (mergeWalk cl C).length ≤ C.length + 1 := by
  induction C generalizing cl with
  | nil => exact emit_length_le cl
  | cons c C ih =>
    unfold mergeWalk
    split
    · exact (ih _).trans (Nat.le_succ _)
    · have hemit := emit_length_le cl
      have hrest := ih c
      rw [List.length_append, List.length_cons]
      omega

theorem merge_length_le (C : List EchoPeak) : (merge C).length ≤ C.length := by
  rw [← (sortByPosition_perm C).length_eq]
  unfold merge
  cases sortByPosition C with
  | nil => exact Nat.le_refl 0
  | cons c C => exact mergeWalk_length_le C c

/-- Merging keeps every property that `absorb` keeps. -/
theorem merge_keeps (Q : EchoPeak → Prop) (hQ : ∀ a b, Q a → Q b → Q (absorb a b)) (C : List EchoPeak)
    (h : ∀ c ∈ C, Q c) : ∀ p ∈ merge C, Q p := by
  have hsorted : ∀ c ∈ sortByPosition C, Q c := fun c hc => h c ((sortByPosition_perm C).mem_iff.mp hc)
  unfold merge
  cases hs : sortByPosition C with
  | nil => exact fun p hp => nomatch hp
  | cons c D =>
    rw [hs] at hsorted
    exact mergeWalk_keeps Q hQ D c (hsorted c List.mem_cons_self) fun d hd => hsorted d (List.mem_cons_of_mem c hd)

theorem absorb_inRange (a b : EchoPeak) (ha : PeakInRange a) (hb : PeakInRange b) : PeakInRange (absorb a b) where
  position_le   := by
    unfold absorb
    split
    · exact hb.position_le
    · exact ha.position_le
  amplitude_le  := by
    unfold absorb
    split
    · exact hb.amplitude_le
    · exact ha.amplitude_le
  leftBound_le  := (Nat.min_le_left _ _).trans ha.leftBound_le
  rightBound_le := Nat.max_le.mpr ⟨ha.rightBound_le, hb.rightBound_le⟩
  prominence_le := Nat.max_le.mpr ⟨ha.prominence_le, hb.prominence_le⟩

theorem merge_inRange (C : List EchoPeak) (h : ∀ c ∈ C, PeakInRange c) : ∀ p ∈ merge C, PeakInRange p :=
  merge_keeps PeakInRange absorb_inRange C h

/-! ### Classification and the edge cluster -/

theorem classify_length (P : List EchoPeak) : (classify P).length = P.length := List.length_mapIdx

theorem classify_inRange (P : List EchoPeak) (h : ∀ p ∈ P, PeakInRange p) : ∀ q ∈ classify P, PeakInRange q := by
  intro q hq
  obtain ⟨k, hk, rfl⟩ := List.mem_mapIdx.mp hq
  obtain ⟨hpos, hamp, hleft, hright, hprom⟩ := h P[k] (List.getElem_mem hk)
  exact ⟨hpos, hamp, hleft, hright, hprom⟩

theorem blank_inRange : PeakInRange EchoPeak.blank := by
  constructor <;> decide

theorem peakAt_inRange (P : List EchoPeak) (k : Nat) (h : ∀ p ∈ P, PeakInRange p) : PeakInRange (peakAt P k) := by
  by_cases hk : k < P.length
  · rw [peakAt_of_lt P k hk]
    exact h _ (List.getElem_mem hk)
  · rw [peakAt, List.getD_eq_default _ _ (Nat.le_of_not_lt hk)]
    exact blank_inRange

theorem mem_of_mem_interference {P : List EchoPeak} {q : EchoPeak} (h : q ∈ interference P) : q ∈ P :=
  (List.mem_filter.mp h).1

theorem mem_of_strongest_between {P : List EchoPeak} {E L st : EchoPeak}
    (h : strongest (betweenPeaks P E L) = some st) : st ∈ P :=
  mem_of_mem_interference (List.mem_filter.mp (List.mem_of_find?_eq_some h)).1

/-- The cluster is the Edge peak's own, or it is extended by a peak of the list. -/
theorem edgeCluster_cases (P : List EchoPeak) (li : Nat) :
    edgeCluster P li = plainCluster P (peakAt P 0) ∨ ∃ st ∈ P, edgeCluster P li = extendedCluster P st := by
  unfold edgeCluster
  split
  case h_1 => exact .inl rfl
  case h_2 st hst =>
    split
    · exact .inr ⟨st, mem_of_strongest_between hst, rfl⟩
    · exact .inl rfl

theorem edgeCluster_amplitude_le (P : List EchoPeak) (li : Nat) (h : ∀ p ∈ P, PeakInRange p) :
    (edgeCluster P li).amplitude ≤ 65535 := by
  rcases edgeCluster_cases P li with hplain | ⟨st, hst, hext⟩
  · rw [hplain]
    exact (peakAt_inRange P 0 h).amplitude_le
  · rw [hext]
    exact (h st hst).amplitude_le

theorem mem_of_mem_edgeCluster_far {P : List EchoPeak} {li : Nat} {q : EchoPeak}
    (h : q ∈ (edgeCluster P li).far) : q ∈ P := by
  rcases edgeCluster_cases P li with hplain | ⟨st, -, hext⟩
  · rw [hplain] at h
    exact mem_of_mem_interference h
  · rw [hext] at h
    exact mem_of_mem_interference (List.mem_filter.mp h).1

theorem maxAmplitude_le (Q : List EchoPeak) (B : Nat) (h : ∀ q ∈ Q, q.amplitude ≤ B) : maxAmplitude Q ≤ B := by
  obtain ⟨-, -, hzero | ⟨q, hq, hval⟩⟩ := foldl_max_spec EchoPeak.amplitude Q 0
  · exact hzero.trans_le (Nat.zero_le B)
  · exact hval.symm.trans_le (h q hq)

/-! ### Thresholds and boundaries -/

theorem nearThreshold_eq (ca : Nat) : nearThreshold ca = ca + ca * 3 / 20 := rfl

theorem farScale_eq (a : Nat) : farScale a = a + (a * 2 + 5) / 10 := rfl

theorem nearBoundary_eq (cr L : Nat) : nearBoundary cr L = min ((cr : Int) + 3) ((L : Int) - 3) := rfl

theorem farBoundary_eq (s : List Nat) (fr : Option Nat) (L : Nat) :
    farBoundary s fr L = min (farBase s fr L : Int) ((L : Int) - 2) := rfl

theorem toRaw_eq (i : Int) : toRaw i = i + 40 := rfl

theorem nearThreshold_le (ca : Nat) (h : ca ≤ 65535) : nearThreshold ca ≤ 75365 := by
  rw [nearThreshold_eq]
  omega

theorem farScale_le (a : Nat) (h : a ≤ 65535) : farScale a ≤ 78642 := by
  rw [farScale_eq]
  omega

theorem farThreshold_le (F : List EchoPeak) (h : ∀ q ∈ F, q.amplitude ≤ 65535) :
    farThreshold (overFar maxAmplitude F) ≤ 78642 := by
  apply farScale_le
  unfold overFar
  split
  · decide
  · exact maxAmplitude_le F 65535 h

/-- The near boundary is cut at L − 3 and so lies within the raw window, whatever the cluster's right bound. -/
theorem toRaw_nearBoundary_range (cr L : Nat) (hL : L ≤ 129) :
    0 ≤ toRaw (nearBoundary cr L) ∧ toRaw (nearBoundary cr L) ≤ 167 := by
  rw [toRaw_eq, nearBoundary_eq]
  omega

/-- The far boundary is cut at L − 2 and so lies within the raw window, whatever the search finds. -/
theorem toRaw_farBoundary_range (s : List Nat) (fr : Option Nat) (L : Nat) (hL : L ≤ 129) :
    0 ≤ toRaw (farBoundary s fr L) ∧ toRaw (farBoundary s fr L) ≤ 167 := by
  rw [toRaw_eq, farBoundary_eq]
  omega

/-- Ordering two values of a range gives values of that range, or the one beyond it. -/
theorem orderBoundaries_range (lo hi bn bf : Int) (hn : lo ≤ bn ∧ bn ≤ hi) (hf : lo ≤ bf ∧ bf ≤ hi) :
    (lo ≤ (orderBoundaries bn bf).1 ∧ (orderBoundaries bn bf).1 ≤ hi + 1) ∧
    (lo ≤ (orderBoundaries bn bf).2 ∧ (orderBoundaries bn bf).2 ≤ hi + 1) := by
  unfold orderBoundaries
  split
  · exact ⟨by omega, by omega⟩
  · split
    · exact ⟨by omega, by omega⟩
    · exact ⟨by omega, by omega⟩

/-! ### The result -/

theorem sentinel_inRange : ResultInRange sentinel := by
  refine ⟨?_, ?_, ?_, ?_, ?_, ?_, ?_, fun p hp => nomatch hp⟩ <;> decide

theorem toRaw_position_range (p : EchoPeak) (hp : PeakInRange p) :
    -1 ≤ toRaw p.position ∧ toRaw p.position ≤ 169 := by
  have := hp.position_le
  rw [toRaw_eq]
  omega

theorem deriveResult_inRange (s : List Nat) (P : List EchoPeak) (li : Nat) (hlen : P.length ≤ 32)
    (h : ∀ p ∈ P, PeakInRange p) : ResultInRange (deriveResult s P li) := by
  have hE := peakAt_inRange P 0 h
  have hL := peakAt_inRange P li h
  have hnear := nearThreshold_le _ (edgeCluster_amplitude_le P li h)
  have hfar := farThreshold_le _ fun q (hq : q ∈ (edgeCluster P li).far) =>
    (h q (mem_of_mem_edgeCluster_far hq)).amplitude_le
  obtain ⟨hbn, hbf⟩ := orderBoundaries_range 0 167 _ _
    (toRaw_nearBoundary_range (edgeCluster P li).right _ hL.position_le)
    (toRaw_farBoundary_range s (overFar maxRightBound (edgeCluster P li).far) _ hL.position_le)
  exact {
    edgePosition   := toRaw_position_range _ hE
    liquidPosition := toRaw_position_range _ hL
    thresholdNear  := ⟨Int.natCast_nonneg _, Int.ofNat_le.mpr hnear⟩
    boundaryNear   := hbn
    thresholdFar   := ⟨Int.natCast_nonneg _, Int.ofNat_le.mpr hfar⟩
    boundaryFar    := hbf
    count_le       := (List.length_map rawPeak).trans_le hlen
    peaks          := fun p hp =>
      let ⟨q, hq, he⟩ := List.mem_map.mp hp
      ⟨q, h q hq, he.symm⟩ }

theorem resultOfPeaks_inRange (s : List Nat) (P : List EchoPeak) (hlen : P.length ≤ 32)
    (h : ∀ p ∈ P, PeakInRange p) : ResultInRange (resultOfPeaks s P) := by
  unfold resultOfPeaks
  split
  · exact sentinel_inRange
  · exact deriveResult_inRange s _ _ ((classify_length P).trans_le hlen) (classify_inRange P h)

/-- R9: every field of a result of Calibrate is in its range. -/
theorem calibrate_inRange (S : Vector Sample 224) (len : Nat) : ResultInRange (calibrate S len) := by
  unfold calibrate
  split
  · exact sentinel_inRange
  · let s := smooth (extractWindow S)
    exact resultOfPeaks_inRange s _ ((merge_length_le (detect s)).trans (detect_length_le s))
      (merge_inRange _ (detect_inRange s (sampleAt_smooth_le S)))

/-! ### Registers -/

/-- A signed word holds every value from −1 to `B`, for `B` of at most 31 bits. -/
theorem toInt_ofInt_of_range {v : Int} (B : Int) (h : -1 ≤ v ∧ v ≤ B) (hB : B < 2 ^ 31) :
    (BitVec.ofInt 32 v).toInt = v := by
  obtain ⟨hlow, hhigh⟩ := h
  exact BitVec.toInt_ofInt_eq_self (by decide) (by omega) (by omega)

theorem rawPeak_eq (q : EchoPeak) :
    rawPeak q = ⟨q.position + 40, q.amplitude, q.leftBound + 40, q.rightBound + 40, q.prominence, q.role⟩ := rfl

/-- The words of a raw peak hold its fields exactly (10_state.md R37). -/
theorem peakEntry_rawPeak_exact (q : EchoPeak) (hq : PeakInRange q) :
    let p := rawPeak q
    (peakEntry p).pos.toNat = p.position ∧ (peakEntry p).amp.toNat = p.amplitude ∧
    (peakEntry p).left.toNat = p.leftBound ∧ (peakEntry p).right.toNat = p.rightBound ∧
    (peakEntry p).prom.toNat = p.prominence ∧ (peakEntry p).role = p.role := by
  obtain ⟨hpos, hamp, hleft, hright, hprom⟩ := hq
  simp only [peakEntry, rawPeak_eq, BitVec.toNat_ofNat]
  exact ⟨Nat.mod_eq_of_lt (by omega), Nat.mod_eq_of_lt (by omega), Nat.mod_eq_of_lt (by omega),
    Nat.mod_eq_of_lt (by omega), Nat.mod_eq_of_lt (by omega), trivial⟩

theorem resultRegs_peaks (R : ThresholdResult) (k : Fin 32) : (resultRegs R).peaks[k] = tableEntry R.peaks k :=
  Vector.getElem_ofFn k.isLt

theorem tableEntry_of_lt (P : List EchoPeak) (k : Nat) (h : k < P.length) : tableEntry P k = peakEntry (peakAt P k) := by
  rw [tableEntry, List.getElem?_eq_getElem h, peakAt_of_lt P k h]

theorem tableEntry_of_ge (P : List EchoPeak) (k : Nat) (h : P.length ≤ k) : tableEntry P k = PeakEntry.zero := by
  rw [tableEntry, List.getElem?_eq_none h]

/-- Settles O54: the fields of a result are in their ranges (`calibrate_inRange`), and a register holds every value of
its field's range exactly. -/
theorem registersHoldTheResultExactly : Obligations.RegistersHoldTheResultExactly := by
  intro S len R r
  have hR : ResultInRange R := calibrate_inRange S len
  have signed {v lo B : Int} (h : lo ≤ v ∧ v ≤ B) (hlo : -1 ≤ lo) (hB : B < 2 ^ 31) :
      (BitVec.ofInt 32 v).toInt = v := toInt_ofInt_of_range B ⟨hlo.trans h.1, h.2⟩ hB
  have hcount : r.peakCount.toNat = R.peaks.length := Nat.mod_eq_of_lt (Nat.lt_of_le_of_lt hR.count_le (by decide))
  refine ⟨signed hR.edgePosition (by decide) (by decide), signed hR.liquidPosition (by decide) (by decide),
    signed hR.thresholdNear (by decide) (by decide), signed hR.boundaryNear (by decide) (by decide),
    signed hR.thresholdFar (by decide) (by decide), signed hR.boundaryFar (by decide) (by decide),
    rfl, decide_eq_true_iff, hcount, fun k => ⟨fun hk => ?_, fun hk => ?_⟩⟩
  · have hmem : peakAt R.peaks k ∈ R.peaks := peakAt_of_lt R.peaks k hk ▸ List.getElem_mem hk
    obtain ⟨q, hq, hraw⟩ := hR.peaks _ hmem
    rw [resultRegs_peaks, tableEntry_of_lt R.peaks k hk, hraw]
    exact peakEntry_rawPeak_exact q hq
  · rw [resultRegs_peaks, tableEntry_of_ge R.peaks k hk]
    rfl

end Sys2Proof.Proofs

/-! PROOFS. What one step can do to the architectural state, said once as a table of effects (`StepEffect`,
`step_effect`), and the causes of a change to each status bit and to the result registers, read off that table. -/

namespace Sys2Proof.Proofs

open Sys2Proof Sys2Proof.Machine Sys2Proof.Safety

/-! ### The instruction of a step is well formed -/

theorem decodeWrite_wellFormed (off : Offset) (d : Word) (h : off.aligned = true) :
    (decodeWrite off d).wellFormed = true := by
  unfold decodeWrite
  split
  · rcases decodeCommand_cases d with ⟨-, e⟩ | ⟨-, e⟩ | ⟨-, e⟩ | ⟨h0, h1, h2, e⟩ <;> rw [e]
    · rfl
    · rfl
    · rfl
    · simp [Instr.wellFormed, isCommandWord, h, h0, h1, h2]
  · rename_i hoff
    simp [Instr.wellFormed, h, hoff]

theorem decodeRequest_wellFormed (r : Request) (i : Instr) (h : decodeRequest r = .ok i) : i.wellFormed = true := by
  by_cases hsize : r.header.size = 0b10#2
  · rw [decodeRequest_size32 r hsize] at h
    split at h
    · cases h
    · rename_i ha
      have ha : r.header.addr.aligned = true := Bool.eq_true_of_not_eq_false ha
      split at h
      · cases h
        exact decodeWrite_wellFormed _ _ ha
      · cases h
        exact ha
  · obtain ⟨e, he⟩ := decodeRequest_not_size32 r hsize
    rw [he] at h
    cases h

theorem eventInstr_wellFormed (e : Event) (i : Instr) (h : eventInstr e = some i) : i.wellFormed = true := by
  unfold eventInstr at h
  split at h
  · split at h
    · rename_i hdec
      cases h
      exact decodeRequest_wellFormed _ _ hdec
    · cases h
  · cases h

theorem nextInstr_wellFormed (s : State) (i : Instr) (h : nextInstr s = some i) : i.wellFormed = true := by
  unfold nextInstr at h
  split at h
  · cases h
  · split at h
    · cases h
    · exact eventInstr_wellFormed _ i h

/-- A well-formed WR32 to CMD carries no legal command word (assumption 8). -/
theorem not_commandWord_of_wellFormed (d : Word) (h : (Instr.wr32 0x010#12 d).wellFormed = true) :
    d ≠ 0#32 ∧ d ≠ 1#32 ∧ d ≠ 2#32 := by
  have hlegal : (Offset.aligned 0x010#12 && !(0x010#12 == cmdOffset && isCommandWord d)) = true := h
  have hcmd : isCommandWord d = false := by simpa [cmdOffset] using (Bool.and_eq_true_iff.mp hlegal).2
  simpa [isCommandWord, and_assoc] using hcmd

/-! ### The table of effects -/

/-- The architectural state of the block: `State` without the model's own fields (10_state.md). -/
structure Block where
  ie      : Bool
  busy    : Bool
  done    : Bool
  errBusy : Bool
  errCmd  : Bool
  len     : BitVec 8
  results : ResultRegs
  samples : Vector Sample 224

def blockOf (s : State) : Block :=
  ⟨s.ie, s.busy, s.done, s.errBusy, s.errCmd, s.len, s.results, s.samples⟩

/-- The accesses that are refused with ERR_BUSY while BUSY = 1 (60_exceptions.md R203). -/
inductive Refusable : Instr → Prop
  | calibrate : Refusable .calibrate
  | clear : Refusable .clear
  | writeLen (d : Word) : Refusable (.wr32 0x014 d)
  | writeSample (j : Fin 224) (d : Word) : Refusable (.wr32 (sampleOffset j) d)

/-- Everything one step from `s` to `t` can do to the architectural state, with the cause of each effect. -/
inductive StepEffect (s t : State) : Prop
  | unchanged (block : blockOf t = blockOf s)
  | ctrlWritten (d : Word) (instr : nextInstr s = some (.wr32 0x008 d))
      (block : blockOf t = { blockOf s with ie := d.getLsbD 0 })
  | statusWritten (d : Word) (instr : nextInstr s = some (.wr32 0x00C d))
      (block : blockOf t = { blockOf s with
        done := s.done && !d.getLsbD 1, errBusy := s.errBusy && !d.getLsbD 2, errCmd := s.errCmd && !d.getLsbD 3 })
  | illegalCommand (d : Word) (instr : nextInstr s = some (.wr32 0x010 d)) (illegal : d ≠ 0#32 ∧ d ≠ 1#32 ∧ d ≠ 2#32)
      (block : blockOf t = { blockOf s with errCmd := true })
  | refused (i : Instr) (instr : nextInstr s = some i) (refusable : Refusable i) (busy : s.busy = true)
      (block : blockOf t = { blockOf s with errBusy := true })
  | lenWritten (d : Word) (instr : nextInstr s = some (.wr32 0x014 d)) (idle : s.busy = false)
      (block : blockOf t = { blockOf s with len := clampLen d })
  | sampleWritten (j : Fin 224) (d : Word) (instr : nextInstr s = some (.wr32 (sampleOffset j) d))
      (idle : s.busy = false)
      (block : blockOf t = { blockOf s with samples := s.samples.set j (d.extractLsb' 0 16) })
  | started (instr : nextInstr s = some .calibrate) (idle : s.busy = false)
      (block : blockOf t = { blockOf s with busy := true, done := false })
  | cleared (instr : nextInstr s = some .clear) (idle : s.busy = false)
      (block : blockOf t = { blockOf s with results := resultRegs sentinel, done := false })
  | completed (turn : nextIsEngine s) (busy : s.busy = true)
      (block : blockOf t = { blockOf s with
        results := resultRegs (calibrate s.samples s.len.toNat), done := true, busy := false })
  | reset (turn : nextIsReset s)
      (block : blockOf t =
        ⟨false, false, false, false, false, 0#8, ResultRegs.reset, samplesAtReset (s.resetCount + 1)⟩)

section Instruction

variable {s t : State} {i : Instr}

variable {e : Event} {rest : List Event}

/-- A refusable access sets ERR_BUSY while BUSY = 1, and otherwise has the effect of its acceptance. -/
theorem unlessBusy_effect (hi : nextInstr s = some i) (hr : Refusable i) (a : State)
    (accepted : s.busy = false → StepEffect s (respondWrite a)) :
    StepEffect s (respondWrite (unlessBusy (takeEvent e rest s) a)) := by
  cases hb : s.busy with
  | true =>
    rw [unlessBusy_busy (takeEvent e rest s) a hb]
    exact .refused i hi hr hb rfl
  | false =>
    rw [unlessBusy_idle (takeEvent e rest s) a hb]
    exact accepted hb

theorem startCalibration_effect (hi : nextInstr s = some .calibrate) :
    StepEffect s (respondWrite (startCalibration (takeEvent e rest s))) :=
  unlessBusy_effect hi .calibrate _ fun idle => .started hi idle rfl

theorem clearResults_effect (hi : nextInstr s = some .clear) :
    StepEffect s (respondWrite (clearResults (takeEvent e rest s))) :=
  unlessBusy_effect hi .clear _ fun idle => .cleared hi idle rfl

theorem writeReg_effect {off : Offset} {d : Word} (hi : nextInstr s = some (.wr32 off d)) (h4 : off.toNat % 4 = 0) :
    StepEffect s (respondWrite (writeReg d (takeEvent e rest s) (regAt off.toNat))) := by
  rcases writeReg_cases d (takeEvent e rest s) off h4 with
    hw | ⟨rfl, hw⟩ | ⟨rfl, hw⟩ | ⟨rfl, hw⟩ | ⟨rfl, hw⟩ | ⟨j, rfl, hw⟩ <;> rw [hw]
  · exact .unchanged rfl
  · exact .ctrlWritten d hi rfl
  · exact .statusWritten d hi rfl
  · obtain ⟨h0, h1, h2⟩ := not_commandWord_of_wellFormed d (nextInstr_wellFormed s _ hi)
    rcases runCommand_cases d (takeEvent e rest s) with ⟨h, -⟩ | ⟨h, -⟩ | ⟨h, -⟩ | ⟨-, -, -, hrun⟩
    · exact absurd h h0
    · exact absurd h h1
    · exact absurd h h2
    · rw [hrun]
      exact .illegalCommand d hi ⟨h0, h1, h2⟩ rfl
  · exact unlessBusy_effect hi (.writeLen d) _ fun idle => .lenWritten d hi idle rfl
  · exact unlessBusy_effect hi (.writeSample j d) _ fun idle => .sampleWritten j d hi idle rfl

theorem exec_effect (hi : nextInstr s = some i) (hx : exec i (takeEvent e rest s) = .next t) : StepEffect s t := by
  rcases exec_cases i _ t hx with ⟨off, -, rfl | rfl⟩ | ⟨off, d, rfl, h4, rfl⟩ | ⟨off, d, -, rfl⟩ | ⟨-, rfl⟩ |
    ⟨rfl, rfl⟩ | ⟨rfl, rfl⟩
  · exact .unchanged rfl
  · exact .unchanged rfl
  · exact writeReg_effect hi h4
  · exact .unchanged rfl
  · exact .unchanged rfl
  · exact startCalibration_effect hi
  · exact clearResults_effect hi

end Instruction

theorem engineTurn_effect {s : State} (turn : nextIsEngine s) (es : List Event) :
    StepEffect s (engineTurn { s with inbox := es }) := by
  unfold engineTurn
  split
  · rename_i hb
    exact .completed turn hb rfl
  · exact .unchanged rfl

theorem step_effect {s t : State} (h : step s = .next t) : StepEffect s t := by
  rcases step_cases s t h with ⟨e, rest, i, -, hi, hx⟩ | ⟨e, rest, w, -, -, rfl⟩ | ⟨e, rest, -, -, rfl⟩ |
    ⟨turn, -, rfl⟩ | ⟨turn, -, rfl⟩
  · exact exec_effect hi hx
  · exact .unchanged rfl
  · exact .unchanged rfl
  · exact engineTurn_effect turn _
  · exact .reset turn rfl

/-! ### The causes of a change, field by field -/

section Fields

variable {s t : State}

theorem step_busy (h : step s = .next t) :
    t.busy = s.busy ∨ (t.busy = true ∧ nextInstr s = some .calibrate) ∨
    (t.busy = false ∧ (nextIsEngine s ∨ nextIsReset s)) := by
  cases step_effect h with
  | started instr _ block => exact .inr (.inl ⟨congrArg Block.busy block, instr⟩)
  | completed turn _ block => exact .inr (.inr ⟨congrArg Block.busy block, .inl turn⟩)
  | reset turn block => exact .inr (.inr ⟨congrArg Block.busy block, .inr turn⟩)
  | _ =>
    rename_i block
    exact .inl (congrArg Block.busy block)

theorem step_done (h : step s = .next t) :
    t.done = s.done ∨ (t.done = true ∧ s.busy = true ∧ nextIsEngine s) ∨
    (t.done = false ∧
      (nextIsReset s ∨ (s.busy = false ∧ (nextInstr s = some .calibrate ∨ nextInstr s = some .clear)))) ∨
    ∃ d : Word, nextInstr s = some (.wr32 0x00C d) ∧ t.done = (s.done && !d.getLsbD 1) := by
  cases step_effect h with
  | statusWritten d instr block => exact .inr (.inr (.inr ⟨d, instr, congrArg Block.done block⟩))
  | started instr idle block => exact .inr (.inr (.inl ⟨congrArg Block.done block, .inr ⟨idle, .inl instr⟩⟩))
  | cleared instr idle block => exact .inr (.inr (.inl ⟨congrArg Block.done block, .inr ⟨idle, .inr instr⟩⟩))
  | completed turn busy block => exact .inr (.inl ⟨congrArg Block.done block, busy, turn⟩)
  | reset turn block => exact .inr (.inr (.inl ⟨congrArg Block.done block, .inl turn⟩))
  | _ =>
    rename_i block
    exact .inl (congrArg Block.done block)

theorem step_errBusy (h : step s = .next t) :
    t.errBusy = s.errBusy ∨ (t.errBusy = true ∧ s.busy = true ∧ ∃ i, nextInstr s = some i ∧ Refusable i) ∨
    (t.errBusy = false ∧ nextIsReset s) ∨
    ∃ d : Word, nextInstr s = some (.wr32 0x00C d) ∧ t.errBusy = (s.errBusy && !d.getLsbD 2) := by
  cases step_effect h with
  | statusWritten d instr block => exact .inr (.inr (.inr ⟨d, instr, congrArg Block.errBusy block⟩))
  | refused i instr refusable busy block =>
    exact .inr (.inl ⟨congrArg Block.errBusy block, busy, i, instr, refusable⟩)
  | reset turn block => exact .inr (.inr (.inl ⟨congrArg Block.errBusy block, turn⟩))
  | _ =>
    rename_i block
    exact .inl (congrArg Block.errBusy block)

theorem step_errCmd (h : step s = .next t) :
    t.errCmd = s.errCmd ∨
    (t.errCmd = true ∧ ∃ d : Word, (d ≠ 0#32 ∧ d ≠ 1#32 ∧ d ≠ 2#32) ∧ nextInstr s = some (.wr32 0x010 d)) ∨
    (t.errCmd = false ∧ nextIsReset s) ∨
    ∃ d : Word, nextInstr s = some (.wr32 0x00C d) ∧ t.errCmd = (s.errCmd && !d.getLsbD 3) := by
  cases step_effect h with
  | statusWritten d instr block => exact .inr (.inr (.inr ⟨d, instr, congrArg Block.errCmd block⟩))
  | illegalCommand d instr illegal block => exact .inr (.inl ⟨congrArg Block.errCmd block, d, illegal, instr⟩)
  | reset turn block => exact .inr (.inr (.inl ⟨congrArg Block.errCmd block, turn⟩))
  | _ =>
    rename_i block
    exact .inl (congrArg Block.errCmd block)

theorem step_len (h : step s = .next t) : t.len = s.len ∨ t.len = 0#8 ∨ ∃ d, t.len = clampLen d := by
  cases step_effect h with
  | lenWritten d _ _ block => exact .inr (.inr ⟨d, congrArg Block.len block⟩)
  | reset _ block => exact .inr (.inl (congrArg Block.len block))
  | _ =>
    rename_i block
    exact .inl (congrArg Block.len block)

theorem step_results (h : step s = .next t) :
    t.results = s.results ∨
    (t.results = resultRegs (calibrate s.samples s.len.toNat) ∧ s.busy = true ∧ nextIsEngine s) ∨
    (t.results = resultRegs sentinel ∧ s.busy = false ∧ nextInstr s = some .clear) ∨
    (t.results = ResultRegs.reset ∧ nextIsReset s) := by
  cases step_effect h with
  | completed turn busy block => exact .inr (.inl ⟨congrArg Block.results block, busy, turn⟩)
  | cleared instr idle block => exact .inr (.inr (.inl ⟨congrArg Block.results block, idle, instr⟩))
  | reset turn block => exact .inr (.inr (.inr ⟨congrArg Block.results block, turn⟩))
  | _ =>
    rename_i block
    exact .inl (congrArg Block.results block)

end Fields

/-! ### The obligations -/

/-- Settles O12: a reserved offset names the reserved register, whose word is 0. -/
theorem reservedOffsetsReadZero : Obligations.ReservedOffsetsReadZero := by
  intro s off h4 hoff
  have hreg : regAt off.toNat = .reserved := regAt_reserved _ (by omega)
  rw [execRd32_aligned off s h4, readWord, hreg]
  rfl

/-- A STATUS write that turns a set bit to 0 wrote a 1 to it. -/
theorem ack_of_cleared {old new bit : Bool} (hold : old = true) (hnew : new = false) (h : new = (old && !bit)) :
    bit = true := by
  subst hold hnew
  simpa using h

/-- A STATUS write sets no bit. -/
theorem not_set_by_ack {old new bit : Bool} (hold : old = false) (hnew : new = true) (h : new = (old && !bit)) :
    False := by
  subst hold hnew
  simp at h

/-- Settles O25, from the causes of a change to BUSY and to DONE. -/
theorem busyAndDoneChangeOnlyAsTabulated : Obligations.BusyAndDoneChangeOnlyAsTabulated := by
  intro s t h
  refine ⟨fun hs ht => ?_, fun hs ht => ?_, fun hs ht => ?_, fun hs ht => ?_⟩
  · rcases step_busy h with heq | ⟨-, instr⟩ | ⟨hf, -⟩
    · simp [heq, hs] at ht
    · exact instr
    · simp [hf] at ht
  · rcases step_busy h with heq | ⟨hset, -⟩ | ⟨-, turn⟩
    · simp [heq, hs] at ht
    · simp [hset] at ht
    · exact turn
  · rcases step_done h with heq | ⟨-, cause⟩ | ⟨hf, -⟩ | ⟨d, -, hack⟩
    · simp [heq, hs] at ht
    · exact cause
    · simp [hf] at ht
    · exact (not_set_by_ack hs ht hack).elim
  · rcases step_done h with heq | ⟨hset, -⟩ | ⟨-, turn | accepted⟩ | ⟨d, instr, hack⟩
    · simp [heq, hs] at ht
    · simp [hset] at ht
    · exact .inl turn
    · exact .inr (.inl accepted)
    · exact .inr (.inr ⟨d, ack_of_cleared hs ht hack, instr⟩)

/-- Settles O26, from the causes of a change to ERR_BUSY and to ERR_CMD. -/
theorem errorBitsChangeOnlyAsTabulated : Obligations.ErrorBitsChangeOnlyAsTabulated := by
  intro s t h
  refine ⟨fun hs ht => ?_, fun hs ht => ?_, fun hs ht => ?_, fun hs ht => ?_⟩
  · rcases step_errBusy h with heq | ⟨-, busy, i, instr, refusable⟩ | ⟨hf, -⟩ | ⟨d, -, hack⟩
    · simp [heq, hs] at ht
    · refine ⟨busy, ?_⟩
      cases refusable with
      | calibrate => exact .inl instr
      | clear => exact .inr (.inl instr)
      | writeLen d => exact .inr (.inr (.inl ⟨d, instr⟩))
      | writeSample j d => exact .inr (.inr (.inr ⟨j, d, instr⟩))
    · simp [hf] at ht
    · exact (not_set_by_ack hs ht hack).elim
  · rcases step_errBusy h with heq | ⟨hset, -⟩ | ⟨-, turn⟩ | ⟨d, instr, hack⟩
    · simp [heq, hs] at ht
    · simp [hset] at ht
    · exact .inl turn
    · exact .inr ⟨d, ack_of_cleared hs ht hack, instr⟩
  · rcases step_errCmd h with heq | ⟨-, d, ⟨h0, h1, h2⟩, instr⟩ | ⟨hf, -⟩ | ⟨d, -, hack⟩
    · simp [heq, hs] at ht
    · exact ⟨d, h0, h1, h2, instr⟩
    · simp [hf] at ht
    · exact (not_set_by_ack hs ht hack).elim
  · rcases step_errCmd h with heq | ⟨hset, -⟩ | ⟨-, turn⟩ | ⟨d, instr, hack⟩
    · simp [heq, hs] at ht
    · simp [hset] at ht
    · exact .inl turn
    · exact .inr ⟨d, ack_of_cleared hs ht hack, instr⟩

/-- Settles O28: a step that changes the results is one of the three that write them. -/
theorem resultsChangeOnlyByCompletionClearOrReset : Obligations.ResultsChangeOnlyByCompletionClearOrReset := by
  intro s t h hne
  rcases step_results h with heq | ⟨-, cause⟩ | ⟨-, cause⟩ | ⟨-, turn⟩
  · exact absurd heq hne
  · exact .inl cause
  · exact .inr (.inl cause)
  · exact .inr (.inr turn)

end Sys2Proof.Proofs

/-! PROOFS. A result that is not the sentinel is a legal report: the order and the lower bounds of the merged peaks, the
role of each classified peak, and what the result registers then hold (45_thresholds.md R166). With the causes of a
change to each field (`step_results`, `step_len`, `step_effect`) this gives the invariant of the block. -/

namespace Sys2Proof.Proofs

open Sys2Proof Sys2Proof.Machine Sys2Proof.Safety

/-! ### Detected and merged peaks -/

/-- What detection asks of a candidate: an interior index and a sample at the threshold (42_peak_detection.md R131). -/
structure PeakDetectable (p : EchoPeak) : Prop where
  position_pos : 1 ≤ p.position
  amplitude_ge : 225 ≤ p.amplitude

theorem detect_detectable (s : List Nat) : ∀ p ∈ detect s, PeakDetectable p := by
  intro p hp
  rw [detect_eq] at hp
  obtain ⟨i, hi, rfl⟩ := List.mem_map.mp hp
  obtain ⟨hmem, hcand⟩ := List.mem_filter.mp (List.mem_of_mem_take hi)
  obtain ⟨-, -, hamp⟩ := (candidate_iff s i).mp hcand
  exact ⟨(List.mem_range'_1.mp hmem).1, hamp⟩

theorem detect_ascending (s : List Nat) : Ascending (detect s) := by
  have hindices : (((List.range' 1 129).filter (candidate s)).take 32).Pairwise (· < ·) :=
    ((List.pairwise_lt_range' (s := 1) (n := 129)).filter _).sublist (List.take_sublist _ _)
  rw [detect_eq]
  exact List.pairwise_map.mpr hindices

theorem absorb_position (cl c : EchoPeak) :
    (absorb cl c).position = cl.position ∨ (absorb cl c).position = c.position := by
  unfold absorb
  split
  · exact .inr rfl
  · exact .inl rfl

theorem absorb_detectable (a b : EchoPeak) (ha : PeakDetectable a) (hb : PeakDetectable b) :
    PeakDetectable (absorb a b) := by
  unfold absorb
  split
  · exact ⟨hb.position_pos, hb.amplitude_ge⟩
  · exact ⟨ha.position_pos, ha.amplitude_ge⟩

theorem merge_detectable (C : List EchoPeak) (h : ∀ c ∈ C, PeakDetectable c) : ∀ p ∈ merge C, PeakDetectable p :=
  merge_keeps PeakDetectable absorb_detectable C h

/-- A cluster's position lies between its first and its last candidate, so the running cluster stays before every
candidate still to come. -/
theorem absorb_ascending (cl c : EchoPeak) (C : List EchoPeak) (h : Ascending (cl :: c :: C)) :
    Ascending (absorb cl c :: C) := by
  obtain ⟨hcl, htail⟩ := List.pairwise_cons.mp h
  obtain ⟨hc, hC⟩ := List.pairwise_cons.mp htail
  refine List.pairwise_cons.mpr ⟨fun d hd => ?_, hC⟩
  rcases absorb_position cl c with e | e
  · rw [e]
    exact hcl d (List.mem_cons_of_mem c hd)
  · rw [e]
    exact hc d hd

/-- Every emitted cluster lies at or after the running one. -/
theorem position_le_of_mem_mergeWalk (cl : EchoPeak) (C : List EchoPeak) (h : Ascending (cl :: C)) :
    ∀ p ∈ mergeWalk cl C, cl.position ≤ p.position := by
  have keeps (a b : EchoPeak) (ha : cl.position ≤ a.position) (hb : cl.position ≤ b.position) :
      cl.position ≤ (absorb a b).position := by
    rcases absorb_position a b with e | e
    · exact ha.trans_eq e.symm
    · exact hb.trans_eq e.symm
  exact mergeWalk_keeps (fun p => cl.position ≤ p.position) keeps C cl (Nat.le_refl _)
    fun c hc => Nat.le_of_lt ((List.pairwise_cons.mp h).1 c hc)

theorem eq_of_mem_emit {cl p : EchoPeak} (h : p ∈ emit cl) : p = cl := by
  unfold emit at h
  split at h
  · exact List.mem_singleton.mp h
  · cases h

theorem emit_ascending (cl : EchoPeak) : Ascending (emit cl) := by
  unfold emit
  split
  · exact List.pairwise_singleton _ _
  · exact List.Pairwise.nil

theorem mergeWalk_ascending (cl : EchoPeak) (C : List EchoPeak) (h : Ascending (cl :: C)) :
    Ascending (mergeWalk cl C) := by
  induction C generalizing cl with
  | nil => exact emit_ascending cl
  | cons c C ih =>
    obtain ⟨hcl, htail⟩ := List.pairwise_cons.mp h
    unfold mergeWalk
    split
    · exact ih _ (absorb_ascending cl c C h)
    · refine List.pairwise_append.mpr ⟨emit_ascending cl, ih c htail, fun p hp q hq => ?_⟩
      rw [eq_of_mem_emit hp]
      exact (hcl c List.mem_cons_self).trans_le (position_le_of_mem_mergeWalk c C htail q hq)

theorem merge_ascending (C : List EchoPeak) (h : Ascending C) : Ascending (merge C) := by
  rw [merge, sortByPosition_of_ascending C h]
  cases C with
  | nil => exact List.Pairwise.nil
  | cons c C => exact mergeWalk_ascending c C h

/-! ### Classified peaks -/

theorem liquidScan_mem (P : List EchoPeak) (lim : Nat) (ks : List Nat) (init : Option Nat) :
    ks.foldl (liquidScanStep P lim) init = init ∨ ∃ k ∈ ks, ks.foldl (liquidScanStep P lim) init = some k := by
  induction ks generalizing init with
  | nil => exact .inl rfl
  | cons k ks ih =>
    have hstep : liquidScanStep P lim init k = init ∨ liquidScanStep P lim init k = some k := by
      unfold liquidScanStep
      split
      · split
        · exact .inr rfl
        · split
          · exact .inr rfl
          · exact .inl rfl
      · exact .inl rfl
    rw [List.foldl_cons]
    rcases ih (liquidScanStep P lim init k) with hkeep | ⟨j, hj, hfound⟩
    · rw [hkeep]
      exact hstep.imp_right fun hk => ⟨k, List.mem_cons_self, hk⟩
    · exact .inr ⟨j, List.mem_cons_of_mem k hj, hfound⟩

/-- R150: the Liquid peak is one of the peaks after the first. -/
theorem liquidIndex_range (P : List EchoPeak) (h : 2 ≤ P.length) : 1 ≤ liquidIndex P ∧ liquidIndex P < P.length := by
  unfold liquidIndex
  split
  · omega
  · split
    · rename_i k hfound
      rcases liquidScan_mem P _ (List.range' 1 (P.length - 1)) none with hnone | ⟨j, hj, hsome⟩
      · rw [hnone] at hfound
        cases hfound
      · rw [hsome] at hfound
        cases hfound
        have hbounds := List.mem_range'_1.mp hj
        omega
    · omega

theorem peakAt_classify (P : List EchoPeak) (k : Nat) (h : k < P.length) :
    peakAt (classify P) k = { peakAt P k with role := roleOf (liquidIndex P) k } := by
  rw [peakAt_of_lt _ k ((classify_length P).symm ▸ h), peakAt_of_lt P k h]
  exact List.getElem_mapIdx ..

/-- Classifying moves no peak. -/
theorem classify_ascending (P : List EchoPeak) (h : Ascending P) : Ascending (classify P) := by
  refine List.pairwise_iff_getElem.mpr fun i j hi hj hij => ?_
  simp only [classify, List.length_mapIdx] at hi hj
  simpa [classify] using List.pairwise_iff_getElem.mp h i j hi hj hij

theorem classify_detectable (P : List EchoPeak) (h : ∀ p ∈ P, PeakDetectable p) :
    ∀ q ∈ classify P, PeakDetectable q := by
  intro q hq
  obtain ⟨k, hk, rfl⟩ := List.mem_mapIdx.mp hq
  obtain ⟨hpos, hamp⟩ := h P[k] (List.getElem_mem hk)
  exact ⟨hpos, hamp⟩

/-- The lists the engine reports: peaks in order and in range, with the Liquid peak at `li` (45_thresholds.md R166). -/
structure Reported (P : List EchoPeak) (li : Nat) : Prop where
  length_le  : P.length ≤ 32
  liquid_pos : 1 ≤ li
  liquid_lt  : li < P.length
  ascending  : Ascending P
  inRange    : ∀ p ∈ P, PeakInRange p
  detectable : ∀ p ∈ P, PeakDetectable p
  role       : ∀ k, k < P.length → (peakAt P k).role = roleOf li k

/-- The pipeline up to classification gives a list fit to be reported. -/
theorem classify_merge_reported (S : Vector Sample 224)
    (h : 2 ≤ (merge (detect (smooth (extractWindow S)))).length) :
    Reported (classify (merge (detect (smooth (extractWindow S)))))
      (liquidIndex (merge (detect (smooth (extractWindow S))))) := by
  generalize hs : smooth (extractWindow S) = s at h ⊢
  have hsamples : ∀ k, sampleAt s k ≤ 65535 := fun k => hs ▸ sampleAt_smooth_le S k
  obtain ⟨hli, hlt⟩ := liquidIndex_range _ h
  exact {
    length_le  := (classify_length _).trans_le ((merge_length_le _).trans (detect_length_le s))
    liquid_pos := hli
    liquid_lt  := hlt.trans_eq (classify_length _).symm
    ascending  := classify_ascending _ (merge_ascending _ (detect_ascending s))
    inRange    := classify_inRange _ (merge_inRange _ (detect_inRange s hsamples))
    detectable := classify_detectable _ (merge_detectable _ (detect_detectable s))
    role       := fun k hk => congrArg EchoPeak.role (peakAt_classify _ k (hk.trans_eq (classify_length _))) }

/-! ### The order of a report -/

theorem peakAt_mem (P : List EchoPeak) (k : Nat) (h : k < P.length) : peakAt P k ∈ P :=
  peakAt_of_lt P k h ▸ List.getElem_mem h

theorem peakAt_position_lt {P : List EchoPeak} (h : Ascending P) {j k : Nat} (hjk : j < k) (hk : k < P.length) :
    (peakAt P j).position < (peakAt P k).position := by
  rw [peakAt_of_lt P j (hjk.trans hk), peakAt_of_lt P k hk]
  exact List.pairwise_iff_getElem.mp h j k (hjk.trans hk) hk hjk

/-- R164: the ordered boundaries are strictly in order. -/
theorem orderBoundaries_lt (bn bf : Int) : (orderBoundaries bn bf).1 < (orderBoundaries bn bf).2 := by
  unfold orderBoundaries
  split
  · assumption
  · split
    · simp only
      omega
    · simp only
      omega

/-! ### The lower bounds of the thresholds -/

theorem edgeCluster_amplitude_ge {P : List EchoPeak} {li : Nat} (h : Reported P li) :
    225 ≤ (edgeCluster P li).amplitude := by
  rcases edgeCluster_cases P li with hplain | ⟨st, hst, hext⟩
  · rw [hplain]
    exact (h.detectable _ (peakAt_mem P 0 (Nat.zero_lt_of_lt h.liquid_lt))).amplitude_ge
  · rw [hext]
    exact (h.detectable st hst).amplitude_ge

theorem nearThreshold_ge (ca : Nat) (h : 225 ≤ ca) : 258 ≤ nearThreshold ca := by
  rw [nearThreshold_eq]
  omega

theorem farScale_ge (a : Nat) (h : 225 ≤ a) : 270 ≤ farScale a := by
  rw [farScale_eq]
  omega

theorem le_maxAmplitude {Q : List EchoPeak} {q : EchoPeak} (h : q ∈ Q) : q.amplitude ≤ maxAmplitude Q := by
  obtain ⟨-, hmax, -⟩ := foldl_max_spec EchoPeak.amplitude Q 0
  exact hmax q h

theorem farThreshold_ge (F : List EchoPeak) (h : ∀ q ∈ F, 225 ≤ q.amplitude) :
    270 ≤ farThreshold (overFar maxAmplitude F) := by
  apply farScale_ge
  cases F with
  | nil => decide
  | cons q F => exact (h q List.mem_cons_self).trans (le_maxAmplitude List.mem_cons_self)

/-! ### What the registers hold -/

/-- An unsigned register word holds every value from 0 to `B`, for `B` of at most 32 bits. -/
theorem toNat_ofInt_of_range {v : Int} (B : Int) (h : 0 ≤ v ∧ v ≤ B) (hB : B < 2 ^ 32) :
    ((BitVec.ofInt 32 v).toNat : Int) = v := by
  obtain ⟨hlow, hhigh⟩ := h
  rw [BitVec.toNat_ofInt]
  omega

theorem sentinel_regs : resultRegs sentinel = ResultRegs.reset := by
  have htable : (Vector.ofFn fun k : Fin 32 => tableEntry [] k.val) = Vector.replicate 32 PeakEntry.zero :=
    Vector.ext fun k hk => by simp [tableEntry]
  simp only [resultRegs, ResultRegs.reset, sentinel, htable]
  decide

section Report

variable {s : List Nat} {P : List EchoPeak} {li : Nat}

theorem resultRegs_peakCount (R : ThresholdResult) (h : R.peaks.length ≤ 32) :
    (resultRegs R).peakCount.toNat = R.peaks.length := Nat.mod_eq_of_lt (by omega)

theorem derived_peakCount (h : Reported P li) :
    (resultRegs (deriveResult s P li)).peakCount.toNat = P.length :=
  (resultRegs_peakCount _ ((List.length_map rawPeak).trans_le h.length_le)).trans (List.length_map rawPeak)

theorem derived_entry (h : Reported P li) (k : Fin 32) (hk : k.val < P.length) :
    (resultRegs (deriveResult s P li)).peaks[k].pos.toNat = (peakAt P k).position + 40 ∧
    (resultRegs (deriveResult s P li)).peaks[k].role = roleOf li k := by
  have hraw : peakAt (P.map rawPeak) k = rawPeak (peakAt P k) := by
    rw [peakAt_of_lt _ k (by simpa using hk), peakAt_of_lt P k hk, List.getElem_map]
  have hentry : (resultRegs (deriveResult s P li)).peaks[k] = peakEntry (rawPeak (peakAt P k)) := by
    rw [resultRegs_peaks, ← hraw]
    exact tableEntry_of_lt _ k (by simpa [deriveResult, assemble] using hk)
  obtain ⟨hpos, -, -, -, -, hrole⟩ := peakEntry_rawPeak_exact _ (h.inRange _ (peakAt_mem P k hk))
  rw [hentry]
  exact ⟨hpos, hrole.trans (h.role k hk)⟩

theorem derived_unused (k : Fin 32) (hk : P.length ≤ k.val) :
    (resultRegs (deriveResult s P li)).peaks[k] = PeakEntry.zero := by
  rw [resultRegs_peaks]
  exact tableEntry_of_ge _ k (by simpa [deriveResult, assemble] using hk)

/-- A position register holds the raw position of its peak. -/
theorem positionWord (P : List EchoPeak) (k : Nat) (h : ∀ p ∈ P, PeakInRange p) :
    (BitVec.ofInt 32 (toRaw (peakAt P k).position)).toNat = (peakAt P k).position + 40 := by
  have hle := (peakAt_inRange P k h).position_le
  have hword := toNat_ofInt_of_range (v := toRaw (peakAt P k).position) 169
    (by rw [toRaw_eq]; omega) (by decide)
  rw [toRaw_eq] at hword ⊢
  omega

theorem derived_edgePos (h : Reported P li) :
    (resultRegs (deriveResult s P li)).edgePos.toNat = (peakAt P 0).position + 40 := positionWord P 0 h.inRange

theorem derived_liqPos (h : Reported P li) :
    (resultRegs (deriveResult s P li)).liqPos.toNat = (peakAt P li).position + 40 := positionWord P li h.inRange

theorem derived_boundaries (h : Reported P li) :
    (resultRegs (deriveResult s P li)).bndNear.toNat < (resultRegs (deriveResult s P li)).bndFar.toNat ∧
    (resultRegs (deriveResult s P li)).bndFar.toNat ≤ 169 := by
  have hR : ResultInRange (deriveResult s P li) := deriveResult_inRange s P li h.length_le h.inRange
  have hnear := toNat_ofInt_of_range 168 hR.boundaryNear (by decide)
  have hfar := toNat_ofInt_of_range 168 hR.boundaryFar (by decide)
  have horder : (deriveResult s P li).boundaryNear < (deriveResult s P li).boundaryFar := orderBoundaries_lt _ _
  have hle := hR.boundaryFar.2
  simp only [resultRegs]
  omega

theorem derived_thrNear (h : Reported P li) :
    258 ≤ (resultRegs (deriveResult s P li)).thrNear.toNat ∧
    (resultRegs (deriveResult s P li)).thrNear.toNat ≤ 75365 := by
  have hR : ResultInRange (deriveResult s P li) := deriveResult_inRange s P li h.length_le h.inRange
  have hword := toNat_ofInt_of_range 75365 hR.thresholdNear (by decide)
  have hlow : (258 : Int) ≤ (deriveResult s P li).thresholdNear :=
    Int.ofNat_le.mpr (nearThreshold_ge _ (edgeCluster_amplitude_ge h))
  have hhigh := hR.thresholdNear.2
  simp only [resultRegs]
  omega

theorem derived_thrFar (h : Reported P li) :
    270 ≤ (resultRegs (deriveResult s P li)).thrFar.toNat ∧
    (resultRegs (deriveResult s P li)).thrFar.toNat ≤ 78642 := by
  have hR : ResultInRange (deriveResult s P li) := deriveResult_inRange s P li h.length_le h.inRange
  have hword := toNat_ofInt_of_range 78642 hR.thresholdFar (by decide)
  have hlow : (270 : Int) ≤ (deriveResult s P li).thresholdFar :=
    Int.ofNat_le.mpr (farThreshold_ge _ fun q hq => (h.detectable q (mem_of_mem_edgeCluster_far hq)).amplitude_ge)
  have hhigh := hR.thresholdFar.2
  simp only [resultRegs]
  omega

theorem derived_noContainer (s : List Nat) (P : List EchoPeak) (li : Nat) :
    (resultRegs (deriveResult s P li)).noContainer = false := by
  have hedge : (deriveResult s P li).edgePosition = (peakAt P 0).position + 40 := rfl
  have hliq : (deriveResult s P li).liquidPosition = (peakAt P li).position + 40 := rfl
  have hneither : ¬ ((deriveResult s P li).edgePosition < 0 ∨ (deriveResult s P li).liquidPosition < 0) := by omega
  exact decide_eq_false hneither

/-- The registers of a derived result are a legal report. -/
theorem derived_reportLegal (s : List Nat) (h : Reported P li) : ReportLegal (resultRegs (deriveResult s P li)) := by
  have hcount : (resultRegs (deriveResult s P li)).peakCount.toNat = P.length := derived_peakCount h
  have hliq32 : li < 32 := h.liquid_lt.trans_le h.length_le
  have hfirst : 0 < P.length := Nat.zero_lt_of_lt h.liquid_lt
  obtain ⟨hpos0, hrole0⟩ := derived_entry (s := s) h 0 hfirst
  obtain ⟨hposL, hroleL⟩ := derived_entry (s := s) h ⟨li, hliq32⟩ h.liquid_lt
  obtain ⟨hbnd, hbndHigh⟩ := derived_boundaries (s := s) h
  have hedgeLow := (h.detectable _ (peakAt_mem P 0 hfirst)).position_pos
  have hliqHigh := (peakAt_inRange P li h.inRange).position_le
  have horder := peakAt_position_lt h.ascending h.liquid_pos h.liquid_lt
  exact {
    edge_low := by rw [derived_edgePos h]; omega
    edge_lt_liq := by rw [derived_edgePos h, derived_liqPos h]; omega
    liq_high := by rw [derived_liqPos h]; omega
    bnd_order := hbnd
    bnd_high := hbndHigh
    thrNear_range := derived_thrNear h
    thrFar_range := derived_thrFar h
    count_range := by have := h.liquid_pos; have := h.liquid_lt; have := h.length_le; omega
    ascending := fun j k hjk hk => by
      rw [hcount] at hk
      rw [(derived_entry h j (Nat.lt_trans hjk hk)).1, (derived_entry h k hk).1]
      exact Nat.add_lt_add_right (peakAt_position_lt h.ascending hjk hk) 40
    edge_first := ⟨hrole0, BitVec.eq_of_toNat_eq (hpos0.trans (derived_edgePos h).symm)⟩
    one_liquid := by
      refine ⟨⟨li, hliq32⟩, h.liquid_pos, hcount.symm ▸ h.liquid_lt, ?_, ?_, fun k hk0 hk hne => ?_⟩
      · rw [hroleL]
        exact (if_neg (Nat.ne_of_gt h.liquid_pos)).trans (if_pos rfl)
      · exact BitVec.eq_of_toNat_eq (hposL.trans (derived_liqPos h).symm)
      · rw [(derived_entry h k (hcount ▸ hk)).2]
        exact (if_neg (Nat.ne_of_gt hk0)).trans (if_neg fun e => hne (Fin.ext e))
    unused_zero := fun k hk => derived_unused k (hcount ▸ hk) }

end Report

/-! ### The invariant -/

/-- The two clauses of the invariant that speak of the result registers (10_state.md R34). -/
def ResultsLegal (r : ResultRegs) : Prop :=
  (r.noContainer = true → r = ResultRegs.reset) ∧ (r.noContainer = false → ReportLegal r)

theorem reset_resultsLegal : ResultsLegal ResultRegs.reset := ⟨fun _ => rfl, nofun⟩

/-- Calibrate gives the sentinel or the result derived from a list fit to be reported. -/
theorem calibrate_cases (S : Vector Sample 224) (len : Nat) :
    calibrate S len = sentinel ∨
    ∃ P li, Reported P li ∧ calibrate S len = deriveResult (smooth (extractWindow S)) P li := by
  unfold calibrate analyse resultOfPeaks
  split
  · exact .inl rfl
  · split
    · exact .inl rfl
    · rename_i hlen
      exact .inr ⟨_, _, classify_merge_reported S (Nat.le_of_not_lt hlen), rfl⟩

/-- R166: what a completion writes is the sentinel, or a legal report with NO_CONTAINER = 0. -/
theorem calibrate_resultsLegal (S : Vector Sample 224) (len : Nat) : ResultsLegal (resultRegs (calibrate S len)) := by
  rcases calibrate_cases S len with hsent | ⟨P, li, hrep, hder⟩
  · rw [hsent, sentinel_regs]
    exact reset_resultsLegal
  · rw [hder]
    refine ⟨fun hno => ?_, fun _ => derived_reportLegal _ hrep⟩
    rw [derived_noContainer] at hno
    cases hno

theorem step_keeps_resultsLegal {s t : State} (h : step s = .next t) (hs : ResultsLegal s.results) :
    ResultsLegal t.results := by
  rcases step_results h with heq | ⟨heq, -⟩ | ⟨heq, -⟩ | ⟨heq, -⟩ <;> rw [heq]
  · exact hs
  · exact calibrate_resultsLegal _ _
  · exact sentinel_regs ▸ reset_resultsLegal
  · exact reset_resultsLegal

theorem clampLen_le (d : Word) : (clampLen d).toNat ≤ 224 := by
  unfold clampLen
  split
  · assumption
  · decide

theorem step_keeps_len_legal {s t : State} (h : step s = .next t) (hs : s.len.toNat ≤ 224) : t.len.toNat ≤ 224 := by
  rcases step_len h with heq | heq | ⟨d, heq⟩ <;> rw [heq]
  · exact hs
  · decide
  · exact clampLen_le d

/-- R26: a start clears DONE with the setting of BUSY, a completion clears BUSY with the setting of DONE, and no other
effect sets either. -/
theorem step_keeps_busy_not_done {s t : State} (h : step s = .next t) (hs : s.busy = true → s.done = false)
    (ht : t.busy = true) : t.done = false := by
  have quiet (hbusy : t.busy = s.busy) : s.done = false := hs (hbusy ▸ ht)
  cases step_effect h with
  | statusWritten d _ block =>
    have hdone : t.done = (s.done && !d.getLsbD 1) := congrArg Block.done block
    rw [hdone, quiet (congrArg Block.busy block), Bool.false_and]
  | started _ _ block => exact congrArg Block.done block
  | cleared _ _ block => exact congrArg Block.done block
  | completed _ _ block =>
    have hidle : t.busy = false := congrArg Block.busy block
    simp [hidle] at ht
  | reset _ block => exact congrArg Block.done block
  | _ =>
    rename_i block
    exact (congrArg Block.done block).trans (quiet (congrArg Block.busy block))

/-- Settles O56: each clause of the invariant is kept, the clauses on the results because every result of Calibrate is
the sentinel or a legal report (`calibrate_resultsLegal`). -/
theorem everyStepKeepsInv : Obligations.EveryStepKeepsInv := by
  intro s t hinv h
  obtain ⟨hno, hcont⟩ := step_keeps_resultsLegal h ⟨hinv.no_container, hinv.container⟩
  exact {
    busy_not_done := step_keeps_busy_not_done h hinv.busy_not_done
    len_legal     := step_keeps_len_legal h hinv.len_legal
    no_container  := hno
    container     := hcont }

end Sys2Proof.Proofs

/-! PROOFS. Which accesses reach the block (20_memory.md R61, R62), and a run from its acceptance to its completion: while
BUSY = 1 a step leaves the run and its inputs as they were, or completes it, or is a reset (`step_while_busy`), and every
host event that passes uses up one of those the engine lets pass, so that the completion step comes (R69, R230). -/

namespace Sys2Proof.Proofs

open Sys2Proof Sys2Proof.Machine Sys2Proof.Safety

/-! ### Misaligned offsets -/

theorem aligned_eq_false {off : Offset} (h : off.toNat % 4 ≠ 0) : off.aligned = false :=
  Bool.eq_false_iff.mpr fun ha => h ((aligned_iff off).mp ha)

theorem execRd32_misaligned (off : Offset) (s : State) (h : off.toNat % 4 ≠ 0) :
    exec (.rd32 off) s = .next (accessFault false s) := by
  simp [exec, execRd32, aligned_eq_false h]

theorem execWr32_misaligned (off : Offset) (d : Word) (s : State) (h : off.toNat % 4 ≠ 0) :
    exec (.wr32 off d) s = .next (accessFault true s) := by
  simp [exec, execWr32, aligned_eq_false h]

/-- Settles O20: a misaligned term is the AccessFault of its direction. -/
theorem misalignedTermsAnswerAccessFault : Obligations.MisalignedTermsAnswerAccessFault := by
  intro s off d h
  exact ⟨execRd32_misaligned off s h, execWr32_misaligned off d s h⟩

/-! ### The window -/

theorem requestOf_inside (w : Bool) (size : BitVec 2) (off : Offset) (d : Word) :
    requestOf ⟨w, size, Config.base + off.toNat, d⟩ = some ⟨Header.make w size off, d⟩ := by
  have hwindow : Config.base ≤ Config.base + off.toNat ∧ Config.base + off.toNat < Config.base + 0x1000 :=
    ⟨Nat.le_add_right _ _, Nat.add_lt_add_left off.isLt _⟩
  rw [requestOf, if_pos hwindow, Nat.add_sub_cancel_left, BitVec.ofNat_toNat, BitVec.setWidth_eq]

theorem requestOf_outside (a : PlatformAccess) (h : a.addr < Config.base ∨ Config.base + 0xFFF < a.addr) :
    requestOf a = none :=
  if_neg (by omega)

theorem platformAccess_of_request {a : PlatformAccess} {r : Request} (h : requestOf a = some r) (s : State) :
    platformAccess a s = hostStep r s := by
  rw [platformAccess, h]

theorem platformAccess_of_none {a : PlatformAccess} (h : requestOf a = none) (s : State) :
    platformAccess a s = .next s := by
  rw [platformAccess, h]

/-- A host event is handled when the engine can wait. -/
theorem step_of_hostEvent {s : State} {e : Event} {rest : List Event} (hi : s.inbox = e :: rest)
    (hw : engineDue s = false) : step s = handleEvent e (takeEvent e rest s) :=
  step_of_event s e rest hi (by rw [hw, Bool.and_false])

/-- Settles O7: inside the window an access is handled as its request is, and outside it only its event is taken. -/
theorem windowDecidesWhatReachesTheBlock : Obligations.WindowDecidesWhatReachesTheBlock := by
  refine ⟨fun s w size off d rest hw hi => ?_, fun s a rest hw hi hout => ?_⟩
  · have hrequest := step_of_hostEvent (s := { s with inbox := .request ⟨Header.make w size off, d⟩ :: rest }) rfl hw
    rw [step_of_hostEvent hi hw]
    exact (platformAccess_of_request (requestOf_inside w size off d) _).trans hrequest.symm
  · rw [step_of_hostEvent hi hw]
    exact platformAccess_of_none (requestOf_outside a hout) _

/-! ### A run in progress and its completion -/

/-- From `s` to `t` the run in progress goes on: its inputs are frozen, and the results are the old ones
(20_memory.md R69, 70_reset_and_hazards.md R224). -/
structure RunGoesOn (s t : State) : Prop where
  busy     : t.busy = true
  samples  : t.samples = s.samples
  len      : t.len = s.len
  results  : t.results = s.results
  not_done : s.done = false → t.done = false

/-- Between `s` and `t` the run in progress in `s` completes, with the result of the inputs of `s` (40_commands.md
R112). -/
structure RunCompleted (s t : State) : Prop where
  idle    : t.busy = false
  done    : t.done = true
  samples : t.samples = s.samples
  len     : t.len = s.len
  results : t.results = resultRegs (calibrate s.samples s.len.toNat)

section Run

variable {s t u : State}

theorem RunGoesOn.refl (hb : s.busy = true) : RunGoesOn s s := ⟨hb, rfl, rfl, rfl, id⟩

/-- What is presented is no part of a run. -/
theorem RunGoesOn.withInbox (hb : s.busy = true) (es : List Event) : RunGoesOn s { s with inbox := es } :=
  ⟨hb, rfl, rfl, rfl, id⟩

theorem RunGoesOn.trans (h₁ : RunGoesOn s t) (h₂ : RunGoesOn t u) : RunGoesOn s u where
  busy     := h₂.busy
  samples  := h₂.samples.trans h₁.samples
  len      := h₂.len.trans h₁.len
  results  := h₂.results.trans h₁.results
  not_done := fun h => h₂.not_done (h₁.not_done h)

theorem RunGoesOn.completed (h₁ : RunGoesOn s t) (h₂ : RunCompleted t u) : RunCompleted s u where
  idle    := h₂.idle
  done    := h₂.done
  samples := h₂.samples.trans h₁.samples
  len     := h₂.len.trans h₁.len
  results := by rw [h₂.results, h₁.samples, h₁.len]

/-- Everything a step can do while BUSY = 1. -/
theorem step_while_busy (hb : s.busy = true) (h : step s = .next t) :
    RunGoesOn s t ∨ (nextIsEngine s ∧ RunCompleted s t) ∨ nextIsReset s := by
  have notIdle (idle : s.busy = false) : False := by simp [hb] at idle
  cases step_effect h with
  | statusWritten d _ block =>
    have hdone : t.done = (s.done && !d.getLsbD 1) := congrArg Block.done block
    exact .inl ⟨(congrArg Block.busy block).trans hb, congrArg Block.samples block, congrArg Block.len block,
      congrArg Block.results block, fun hs => by rw [hdone, hs, Bool.false_and]⟩
  | lenWritten _ _ idle _ => exact (notIdle idle).elim
  | sampleWritten _ _ _ idle _ => exact (notIdle idle).elim
  | started _ idle _ => exact (notIdle idle).elim
  | cleared _ idle _ => exact (notIdle idle).elim
  | completed turn _ block =>
    exact .inr (.inl ⟨turn, congrArg Block.busy block, congrArg Block.done block, congrArg Block.samples block,
      congrArg Block.len block, congrArg Block.results block⟩)
  | reset turn _ => exact .inr (.inr turn)
  | _ =>
    rename_i block
    exact .inl ⟨(congrArg Block.busy block).trans hb, congrArg Block.samples block, congrArg Block.len block,
      congrArg Block.results block, fun hs => (congrArg Block.done block).trans hs⟩

end Run

/-- Settles O29: neither a run that goes on nor its completion writes the inputs. -/
theorem inputsAreFrozenWhileBusy : Obligations.InputsAreFrozenWhileBusy := by
  intro s t hb hreset h
  rcases step_while_busy hb h with goesOn | ⟨-, completed⟩ | reset
  · exact ⟨goesOn.samples, goesOn.len⟩
  · exact ⟨completed.samples, completed.len⟩
  · exact absurd reset hreset

/-! ### What a host event leaves as it was -/

theorem unlessBusy_patience (s a : State) (h : a.patience = s.patience) : (unlessBusy s a).patience = s.patience := by
  unfold unlessBusy
  split
  · rfl
  · exact h

/-- No register write touches the latency of a run. -/
theorem writeReg_patience (d : Word) (s : State) (off : Offset) (h4 : off.toNat % 4 = 0) :
    (writeReg d s (regAt off.toNat)).patience = s.patience := by
  rcases writeReg_cases d s off h4 with e | ⟨-, e⟩ | ⟨-, e⟩ | ⟨-, e⟩ | ⟨-, e⟩ | ⟨j, -, e⟩ <;> rw [e]
  · rfl
  · rfl
  · rcases runCommand_cases d s with ⟨-, e⟩ | ⟨-, e⟩ | ⟨-, e⟩ | ⟨-, -, -, e⟩ <;> rw [e]
    · exact unlessBusy_patience _ _ rfl
    · exact unlessBusy_patience _ _ rfl
    · rfl
  · exact unlessBusy_patience _ _ rfl
  · exact unlessBusy_patience _ _ rfl

/-- No instruction touches the latency of a run. -/
theorem exec_patience (i : Instr) (s t : State) (h : exec i s = .next t) : t.patience = s.patience := by
  rcases exec_cases i s t h with ⟨off, -, rfl | rfl⟩ | ⟨off, d, -, h4, rfl⟩ | ⟨off, d, -, rfl⟩ | ⟨-, rfl⟩ | ⟨-, rfl⟩ |
    ⟨-, rfl⟩
  · rfl
  · rfl
  · exact writeReg_patience d s off h4
  · rfl
  · rfl
  · exact unlessBusy_patience _ _ rfl
  · exact unlessBusy_patience _ _ rfl

theorem hostStep_next (r : Request) (s : State) :
    ∃ t, hostStep r s = .next t ∧ t.inbox = s.inbox ∧ t.patience = s.patience := by
  unfold hostStep
  split
  · rename_i i _
    obtain ⟨t, ht⟩ := exec_total i s
    exact ⟨t, ht, exec_inbox i s t ht, exec_patience i s t ht⟩
  · exact ⟨_, rfl, rfl, rfl⟩

theorem handleEvent_next_of_host {e : Event} (he : hostEvent e = true) (s : State) :
    ∃ t, handleEvent e s = .next t ∧ t.inbox = s.inbox ∧ t.patience = s.patience := by
  cases e with
  | request r => exact hostStep_next r s
  | access a =>
    cases hr : requestOf a with
    | some r =>
      have hstep : handleEvent (.access a) s = hostStep r s := platformAccess_of_request hr s
      exact hstep ▸ hostStep_next r s
    | none => exact ⟨s, platformAccess_of_none hr s, rfl, rfl⟩
  | engine => cases he
  | reset => cases he

/-! ### One step of a run -/

section Step

variable {s : State}

theorem engineDue_eq_false (hp : s.patience ≠ 0) : engineDue s = false := by
  simp [engineDue, hp]

theorem engineDue_eq_true (hb : s.busy = true) (hp : s.patience = 0) : engineDue s = true := by
  simp [engineDue, hb, hp]

/-- While BUSY = 1 the engine's turn is the completion. -/
theorem step_completes_of_engine (hb : s.busy = true) (turn : nextIsEngine s) :
    ∃ t, step s = .next t ∧ RunCompleted s t ∧ t.inbox = afterEngine s.inbox := by
  refine ⟨_, step_of_engine s turn, ?_⟩
  rw [engineTurn, if_pos hb]
  exact ⟨⟨rfl, rfl, rfl, rfl, rfl⟩, rfl⟩

/-- A host event that the engine lets pass leaves the run in progress, with one event fewer to let pass. -/
theorem step_goesOn_of_hostEvent {e : Event} {rest : List Event} (hb : s.busy = true) (hi : s.inbox = e :: rest)
    (he : hostEvent e = true) (hp : s.patience ≠ 0) :
    ∃ t, step s = .next t ∧ RunGoesOn s t ∧ t.inbox = rest ∧ t.patience + 1 = s.patience := by
  have hw : engineDue s = false := engineDue_eq_false hp
  obtain ⟨t, ht, hinbox, hpat⟩ := handleEvent_next_of_host he (takeEvent e rest s)
  have hstep : step s = .next t := (step_of_hostEvent hi hw).trans ht
  have hcount : t.patience + 1 = s.patience := by
    rw [hpat, takeEvent_patience, he, hb]
    exact Nat.succ_pred hp
  refine ⟨t, hstep, ?_, hinbox, hcount⟩
  rcases step_while_busy hb hstep with goesOn | ⟨hempty | ⟨_, hengine⟩ | ⟨hdue, -⟩, -⟩ | ⟨_, hreset⟩
  · exact goesOn
  · simp [hi] at hempty
  · rw [hi] at hengine
    cases hengine
    cases he
  · simp [hw] at hdue
  · rw [hi] at hreset
    cases hreset
    cases he

/-- While BUSY = 1, with no reset presented, it is the engine's turn, or that of a host event that the engine lets
pass. -/
theorem engine_or_hostEvent_next (hb : s.busy = true) (hreset : ∀ e ∈ s.inbox, e ≠ .reset) :
    nextIsEngine s ∨ ∃ e rest, s.inbox = e :: rest ∧ hostEvent e = true ∧ s.patience ≠ 0 := by
  have ofHost {e : Event} {rest : List Event} (hi : s.inbox = e :: rest) (he : hostEvent e = true) :
      nextIsEngine s ∨ ∃ e rest, s.inbox = e :: rest ∧ hostEvent e = true ∧ s.patience ≠ 0 := by
    by_cases hp : s.patience = 0
    · exact .inl (.inr (.inr ⟨engineDue_eq_true hb hp, e, rest, hi, he⟩))
    · exact .inr ⟨e, rest, hi, he, hp⟩
  cases hi : s.inbox with
  | nil => exact .inl (.inl hi)
  | cons e rest =>
    cases e with
    | request r => exact hi ▸ ofHost hi rfl
    | access a => exact hi ▸ ofHost hi rfl
    | engine => exact .inl (.inr (.inl ⟨rest, hi⟩))
    | reset => exact absurd rfl (hreset .reset (hi ▸ List.mem_cons_self))

/-- While BUSY = 1, with no reset presented, a step completes the run, or a host event passes and the engine lets one
fewer pass from then on (70_reset_and_hazards.md R230). -/
theorem step_completes_or_goesOn (hb : s.busy = true) (hreset : ∀ e ∈ s.inbox, e ≠ .reset) :
    ∃ t, step s = .next t ∧ (RunCompleted s t ∨ (RunGoesOn s t ∧ t.patience + 1 = s.patience)) := by
  rcases engine_or_hostEvent_next hb hreset with turn | ⟨e, rest, hi, he, hp⟩
  · obtain ⟨t, ht, completed, -⟩ := step_completes_of_engine hb turn
    exact ⟨t, ht, .inl completed⟩
  · obtain ⟨t, ht, goesOn, -, hpat⟩ := step_goesOn_of_hostEvent hb hi he hp
    exact ⟨t, ht, .inr ⟨goesOn, hpat⟩⟩

end Step

/-! ### A whole run -/

theorem drive_succ {env : Environment} {k : Nat} {s u : State} (h : drive env k s = .next u) :
    drive env (k + 1) s = step { u with inbox := env k u } := by
  rw [drive, h]

/-- Under every environment short of reset, a run in progress after `m` steps has a first completion step, and no more
than `patience` steps come before it (70_reset_and_hazards.md R230). -/
theorem drive_completes {env : Environment} (hreset : ∀ k u, ∀ e ∈ env k u, e ≠ .reset) {m : Nat} {s u : State}
    (hu : drive env m s = .next u) (hb : u.busy = true) :
    ∃ n t, n ≤ m + u.patience ∧ drive env (n + 1) s = .next t ∧ RunCompleted u t ∧
      ∀ k, m ≤ k → k ≤ n → ∃ v, drive env k s = .next v ∧ RunGoesOn u v := by
  have presented : RunGoesOn u { u with inbox := env m u } := .withInbox hb _
  obtain ⟨t, ht, completed | ⟨goesOn, hpat⟩⟩ := step_completes_or_goesOn presented.busy (hreset m u)
  · refine ⟨m, t, Nat.le_add_right _ _, (drive_succ hu).trans ht, presented.completed completed, fun k hmk hkm => ?_⟩
    exact ⟨u, Nat.le_antisymm hmk hkm ▸ hu, .refl hb⟩
  · have hfewer : t.patience + 1 = u.patience := hpat
    have onward : RunGoesOn u t := presented.trans goesOn
    obtain ⟨n, t', hn, ht', completed, before⟩ := drive_completes hreset ((drive_succ hu).trans ht) goesOn.busy
    refine ⟨n, t', by omega, ht', onward.completed completed, fun k hmk hkn => ?_⟩
    rcases Nat.eq_or_lt_of_le hmk with rfl | hlt
    · exact ⟨u, hu, .refl hb⟩
    · obtain ⟨v, hv, goesOn'⟩ := before k hlt hkn
      exact ⟨v, hv, onward.trans goesOn'⟩
termination_by u.patience

/-- A scheduled completion step comes just where the schedule puts it, if the engine lets that many host events pass. -/
theorem run_completes_as_scheduled {es rest : List Event} {s : State} (hb : s.busy = true)
    (hi : s.inbox = es ++ .engine :: rest) (hes : ∀ e ∈ es, hostEvent e = true) (hp : es.length ≤ s.patience) :
    ∃ t, Host.Core.run core (es.length + 1) s = .next t ∧ t.inbox = rest ∧ RunCompleted s t := by
  induction es generalizing s with
  | nil =>
    obtain ⟨t, ht, completed, hinbox⟩ := step_completes_of_engine hb (.inr (.inl ⟨rest, hi⟩))
    refine ⟨t, run_succ 0 s t ht, ?_, completed⟩
    rw [hinbox, hi]
    rfl
  | cons e es ih =>
    rw [List.length_cons] at hp
    obtain ⟨u, hu, goesOn, hinbox, hpat⟩ := step_goesOn_of_hostEvent hb hi (hes e List.mem_cons_self) (by omega)
    obtain ⟨t, ht, hrest, completed⟩ :=
      ih goesOn.busy hinbox (fun e' he' => hes e' (List.mem_cons_of_mem e he')) (by omega)
    exact ⟨t, (run_succ _ s u hu).trans ht, hrest, goesOn.completed completed⟩

/-- Settles O57: the completion step comes (`drive_completes`), where the schedule puts it if that is soon enough
(`run_completes_as_scheduled`), and up to it the run goes on with its inputs frozen. -/
theorem resultIsThatOfTheSnapshot : Obligations.ResultIsThatOfTheSnapshot := by
  refine ⟨fun s env hb hreset => ?_, fun s es rest hb hi hes hp => ?_⟩
  · obtain ⟨n, t, -, ht, completed, before⟩ := drive_completes hreset (m := 0) (s := s) rfl hb
    refine ⟨n, t, ht, completed.idle, completed.done, completed.samples, completed.len, completed.results,
      fun k hk => ?_⟩
    obtain ⟨u, hu, goesOn⟩ := before k (Nat.zero_le k) hk
    exact ⟨u, hu, goesOn.busy, goesOn.not_done, goesOn.results⟩
  · obtain ⟨t, ht, hrest, completed⟩ := run_completes_as_scheduled hb hi hes hp
    exact ⟨t, ht, hrest, completed.idle, completed.done, completed.samples, completed.len, completed.results⟩

end Sys2Proof.Proofs

/-! PROOFS. Decoder and encoder agree (30_encoding.md R80 to R89). Both sides are brought to one form: a request is the
three fields of its header and a data word, it decodes exactly when its SIZE is 32 bits and its ADDR is 4-aligned, and W
then chooses between a read and a write (`decodeRequest_eq_ok_iff`). -/

namespace Sys2Proof.Proofs

open Sys2Proof Sys2Proof.Machine

/-! ### Headers and their fields -/

theorem headerMake_inj {w w' : Bool} {size size' : BitVec 2} {addr addr' : Offset} :
    Header.make w size addr = Header.make w' size' addr' ↔ w = w' ∧ size = size' ∧ addr = addr' := by
  refine ⟨fun h => ⟨?_, ?_, ?_⟩, fun ⟨hw, hsize, haddr⟩ => by rw [hw, hsize, haddr]⟩
  · simpa using congrArg Header.write h
  · simpa using congrArg Header.size h
  · simpa using congrArg Header.addr h

theorem header_eq_make_iff (h : Header) (w : Bool) (size : BitVec 2) (addr : Offset) :
    h = Header.make w size addr ↔ h.write = w ∧ h.size = size ∧ h.addr = addr := by
  rw [← headerMake_inj, Header.make_fields]

/-- The mask of R82 keeps W and SIZE whole and the two low bits of ADDR. -/
theorem headerMake_and_mask (w : Bool) (size : BitVec 2) (addr : Offset) :
    Header.make w size addr &&& 0x7003#15 = Header.make w size (addr &&& 3#12) := by
  have hmask : 0x7003#15 = Header.make true 0b11#2 3#12 := rfl
  have hsize : size &&& 0b11#2 = size := BitVec.and_allOnes
  have hwrite : BitVec.ofBool w &&& BitVec.ofBool true = BitVec.ofBool w := by cases w <;> rfl
  rw [hmask, Header.make, Header.make, BitVec.and_append, BitVec.and_append, hsize, hwrite, Header.make]

theorem aligned_iff_and_mask (off : Offset) : off.aligned = true ↔ off &&& 3#12 = 0#12 := by
  have hlow : off.toNat &&& 3 = off.toNat % 4 := Nat.and_two_pow_sub_one_eq_mod off.toNat 2
  rw [aligned_iff, ← BitVec.toNat_inj, BitVec.toNat_and]
  exact hlow ▸ Iff.rfl

/-- What a match word of R82 asks of a header, field by field: its W, a 32-bit SIZE and a 4-aligned ADDR. -/
theorem masked_eq_match_iff (h : Header) (w : Bool) :
    h &&& 0x7003#15 = Header.make w size32 0#12 ↔ h.write = w ∧ h.size = size32 ∧ h.addr.aligned = true := by
  rw [← Header.make_fields h, headerMake_and_mask, headerMake_inj, ← aligned_iff_and_mask, Header.make_fields]

/-! ### Writes -/

/-- A WR32 to CMD is read through the command table (30_encoding.md R84, assumption 8). -/
theorem decodeWrite_cmdOffset (d : Word) :
    decodeWrite cmdOffset d = if d = 0#32 then .nop else if d = 1#32 then .calibrate
      else if d = 2#32 then .clear else .wr32 cmdOffset d := by
  rw [decodeWrite, if_pos rfl]
  rcases decodeCommand_cases d with ⟨rfl, hdec⟩ | ⟨rfl, hdec⟩ | ⟨rfl, hdec⟩ | ⟨hnop, hcalibrate, hclear, hdec⟩ <;>
    rw [hdec]
  · rfl
  · rfl
  · rfl
  · rw [if_neg hnop, if_neg hcalibrate, if_neg hclear]

theorem decodeWrite_of_ne_cmdOffset {off : Offset} (h : off ≠ cmdOffset) (d : Word) :
    decodeWrite off d = .wr32 off d := if_neg h

theorem decodeWrite_of_wellFormed {off : Offset} {d : Word} (h : (Instr.wr32 off d).wellFormed = true) :
    decodeWrite off d = .wr32 off d := by
  by_cases hoff : off = cmdOffset
  · subst hoff
    obtain ⟨hnop, hcalibrate, hclear⟩ := not_commandWord_of_wellFormed d h
    rw [decodeWrite_cmdOffset, if_neg hnop, if_neg hcalibrate, if_neg hclear]
  · exact decodeWrite_of_ne_cmdOffset hoff d

/-- Under whatever name a write is read, its request is the one it came from. -/
theorem encode_decodeWrite (off : Offset) (d : Word) :
    encode (decodeWrite off d) = ⟨Header.make true size32 off, d⟩ := by
  by_cases hoff : off = cmdOffset
  · subst hoff
    rw [decodeWrite, if_pos rfl]
    rcases decodeCommand_cases d with ⟨rfl, hdec⟩ | ⟨rfl, hdec⟩ | ⟨rfl, hdec⟩ | ⟨-, -, -, hdec⟩ <;> rw [hdec] <;> rfl
  · rw [decodeWrite_of_ne_cmdOffset hoff, encode]

/-! ### The decoder -/

/-- Which requests decode, and to what (30_encoding.md R82). -/
theorem decodeRequest_eq_ok_iff (r : Request) (i : Instr) :
    decodeRequest r = .ok i ↔ r.header.size = size32 ∧ r.header.addr.aligned = true ∧
      (if r.header.write then decodeWrite r.header.addr r.data else .rd32 r.header.addr) = i := by
  by_cases hsize : r.header.size = size32
  · rw [decodeRequest_size32 r hsize, ← apply_ite Except.ok]
    cases r.header.addr.aligned <;> simp [hsize]
  · obtain ⟨e, he⟩ := decodeRequest_not_size32 r hsize
    simp [he, hsize]

theorem encode_legal (i : Instr) : Laws.EncodeLegal.Statement i :=
  match i with
  | .rd32 off   => Laws.EncodeLegal.rd32 off
  | .wr32 off d => Laws.EncodeLegal.wr32 off d
  | .nop        => Laws.EncodeLegal.nop
  | .calibrate  => Laws.EncodeLegal.calibrate
  | .clear      => Laws.EncodeLegal.clear

/-! ### The obligations -/

/-- Settles O3: the request of a well-formed instruction is legal, and its direction and operands are the
instruction's. -/
theorem decodeOfEncode : Obligations.DecodeOfEncode := by
  intro i hwf
  obtain ⟨hsize, haligned⟩ := encode_legal i hwf
  refine (decodeRequest_eq_ok_iff _ _).mpr ⟨hsize, haligned, ?_⟩
  cases i with
  | rd32 off   => simp [encode]
  | wr32 off d => simpa [encode] using decodeWrite_of_wellFormed hwf
  | nop        => rfl
  | calibrate  => rfl
  | clear      => rfl

/-- Settles O2: the match words are the fields a request needs to decode. -/
theorem decoderFollowsMatchAndMask : Obligations.DecoderFollowsMatchAndMask := by
  intro r
  have readMatch := masked_eq_match_iff r.header false
  have writeMatch := masked_eq_match_iff r.header true
  refine ⟨fun hm => ?_, fun hm hcmd => ?_, fun hcmd => ?_, fun hread hwrite => ?_⟩
  · obtain ⟨hw, hsize, haligned⟩ := readMatch.mp hm
    exact (decodeRequest_eq_ok_iff _ _).mpr ⟨hsize, haligned, by rw [hw]; rfl⟩
  · obtain ⟨hw, hsize, haligned⟩ := writeMatch.mp hm
    have hoff : r.header.addr ≠ cmdOffset := fun haddr =>
      hcmd ((header_eq_make_iff _ true size32 cmdOffset).mpr ⟨hw, hsize, haddr⟩)
    refine (decodeRequest_eq_ok_iff _ _).mpr ⟨hsize, haligned, ?_⟩
    rw [if_pos hw]
    exact decodeWrite_of_ne_cmdOffset hoff r.data
  · obtain ⟨hw, hsize, haddr⟩ := (header_eq_make_iff _ true size32 cmdOffset).mp hcmd
    refine (decodeRequest_eq_ok_iff _ _).mpr ⟨hsize, by rw [haddr]; rfl, ?_⟩
    rw [if_pos hw, haddr]
    exact decodeWrite_cmdOffset r.data
  · cases hdec : decodeRequest r with
    | error e => exact ⟨e, rfl⟩
    | ok i =>
      obtain ⟨hsize, haligned, -⟩ := (decodeRequest_eq_ok_iff r i).mp hdec
      cases hw : r.header.write with
      | false => exact absurd (readMatch.mpr ⟨hw, hsize, haligned⟩) hread
      | true  => exact absurd (writeMatch.mpr ⟨hw, hsize, haligned⟩) hwrite

/-- Settles O4: a request that decodes has a 32-bit SIZE, and the encoding puts its fields together again. -/
theorem encodeOfDecode : Obligations.EncodeOfDecode := by
  intro r i hdec
  refine ⟨decodeRequest_wellFormed r i hdec, ?_⟩
  obtain ⟨hsize, -, rfl⟩ := (decodeRequest_eq_ok_iff r i).mp hdec
  have hheader : Header.make r.header.write size32 r.header.addr = r.header := hsize ▸ Header.make_fields r.header
  cases hw : r.header.write with
  | false =>
    rw [hw] at hheader
    exact ⟨hheader, fun hbit => absurd (hw.symm.trans hbit) Bool.false_ne_true⟩
  | true =>
    rw [hw] at hheader
    rw [if_pos rfl, encode_decodeWrite]
    exact ⟨hheader, fun _ => rfl⟩

/-- Settles O1: each row of the table is evaluated. -/
theorem specWordsDecode : Obligations.SpecWordsDecode :=
  ⟨rfl, rfl, rfl, rfl, rfl, rfl, rfl, rfl, rfl, rfl, rfl, rfl⟩

end Sys2Proof.Proofs

/-! PROOFS. What RD32, WR32 and the three commands answer and change, register by register (40_commands.md R101 to R111,
R114). A register access is settled by the register its offset names (`OffsetOf`), and an access that BUSY may refuse by
the two cases of `unlessBusy`. -/

namespace Sys2Proof.Proofs

open Sys2Proof Sys2Proof.Machine Sys2Proof.Safety

/-! ### The offsets of a register -/

/-- `off` is the offset of the register `r`. -/
abbrev OffsetOf (off : Offset) (r : Reg) : Prop := off.toNat % 4 = 0 ∧ regAt off.toNat = r

theorem offsetOf_ofNat {n : Nat} {r : Reg} (hlt : n < 0x1000) (h4 : n % 4 = 0) (hreg : regAt n = r) :
    OffsetOf (BitVec.ofNat 12 n) r := by
  rw [OffsetOf, BitVec.toNat_ofNat, Nat.mod_eq_of_lt hlt]
  exact ⟨h4, hreg⟩

theorem offsetOf_sample (j : Fin 224) : OffsetOf (sampleOffset j) (.sample j) :=
  offsetOf_ofNat (by omega) (by omega) (regAt_sample j)

theorem offsetOf_peak (k : Fin 32) (o : Nat) (ho : o < 32 ∧ o % 4 = 0) :
    OffsetOf (BitVec.ofNat 12 (0x400 + 32 * k.val + o)) (.peak k (peakFieldAt o)) :=
  offsetOf_ofNat (by omega) (by omega) (regAt_peak k o ho.1)

theorem rd32_at {off : Offset} {r : Reg} (h : OffsetOf off r) (s : State) :
    exec (.rd32 off) s = .next (respondRead (readReg s r) s) := by
  obtain ⟨h4, hreg⟩ := h
  rw [execRd32_aligned off s h4, readWord, hreg]

theorem wr32_at {off : Offset} {r : Reg} (h : OffsetOf off r) (s : State) (d : Word) :
    exec (.wr32 off d) s = .next (respondWrite (writeReg d s r)) := by
  obtain ⟨h4, hreg⟩ := h
  rw [execWr32_aligned off d s h4, writeWord, hreg]

/-- Where the registers that do not ignore a write stand. -/
theorem offset_of_writable {n : Nat} {r : Reg} (h : regAt n = r) (hr : ignoresWrites r = false) :
    n = 0x008 ∨ n = 0x00C ∨ n = 0x010 ∨ n = 0x014 ∨ (0x800 ≤ n ∧ n < 0xB80) := by
  by_contra hn
  have hignores : ignoresWrites (regAt n) = true :=
    regAt_ignoring n (by omega) (by omega) (by omega) (by omega) (by omega)
  rw [h, hr] at hignores
  cases hignores

/-- An address inside the sample store lies in the word of its sample. -/
theorem regAt_sampleStore {n : Nat} (h : 0x800 ≤ n ∧ n < 0xB80) : regAt n = .sample ⟨(n - 0x800) / 4, by omega⟩ := by
  rw [regAt_high n (by omega), tableRegAt, dif_neg (by omega), dif_pos h]

theorem offset_of_status {n : Nat} (h : regAt n = .status) : n = 0x00C := by
  rcases offset_of_writable h rfl with rfl | rfl | rfl | rfl | hstore
  · cases h
  · rfl
  · cases h
  · cases h
  · rw [regAt_sampleStore hstore] at h
    cases h

theorem offset_of_sample {n : Nat} {j : Fin 224} (h : regAt n = .sample j) :
    0x800 + 4 * j.val ≤ n ∧ n < 0x800 + 4 * j.val + 4 := by
  rcases offset_of_writable h rfl with rfl | rfl | rfl | rfl | hstore
  · cases h
  · cases h
  · cases h
  · cases h
  · rw [regAt_sampleStore hstore] at h
    cases h
    simp only
    omega

/-! ### Words as sums and remainders -/

theorem statusWord_eq_sum (s : State) :
    statusWord s = (if s.busy then 1 else 0) + (if s.done then 2 else 0) + (if s.errBusy then 4 else 0) +
      (if s.errCmd then 8 else 0) := by
  have bits : ∀ b d e c : Bool, bitWord 0 b ||| bitWord 1 d ||| bitWord 2 e ||| bitWord 3 c =
      (if b then 1 else 0) + (if d then 2 else 0) + (if e then 4 else 0) + (if c then 8 else 0) := by decide
  exact bits s.busy s.done s.errBusy s.errCmd

theorem flagsWord_eq_sum (r : ResultRegs) :
    flagsWord r = (if r.edgeExt then 1 else 0) + (if r.noContainer then 2 else 0) := by
  have bits : ∀ e c : Bool, bitWord 0 e ||| bitWord 1 c = (if e then 1 else 0) + (if c then 2 else 0) := by decide
  exact bits r.edgeExt r.noContainer

theorem roleCode_word (r : Role) :
    r.code.setWidth 32 = match r with | .unknown => 0 | .edge => 1 | .liquid => 2 | .interference => 3 := by
  cases r <;> rfl

theorem clampLen_eq_min (d : Word) : clampLen d = BitVec.ofNat 8 (min (d.toNat % 256) 224) := by
  have hlow : (d.extractLsb' 0 8).toNat = d.toNat % 256 := by simp [BitVec.extractLsb'_toNat]
  unfold clampLen
  split
  case isTrue hle =>
    rw [hlow] at hle
    rw [min_eq_left hle, ← hlow, BitVec.ofNat_toNat, BitVec.setWidth_eq]
  case isFalse hgt =>
    rw [hlow] at hgt
    rw [min_eq_right (Nat.le_of_not_le hgt)]

theorem sampleBits_eq_mod (d : Word) : d.extractLsb' 0 16 = BitVec.ofNat 16 (d.toNat % 65536) := by
  apply BitVec.eq_of_toNat_eq
  simp [BitVec.extractLsb'_toNat]

/-! ### Reads -/

/-- Settles O9: each offset names its register, and the register's word is the one tabulated. -/
theorem readFixedRegisters : Obligations.ReadFixedRegisters := by
  intro s answers
  have read {off : Offset} {w : Word} (r : Reg) (h : OffsetOf off r) (hw : readReg s r = w) : answers off w :=
    hw ▸ rd32_at h s
  exact ⟨read .id (by decide) rfl, read .version (by decide) rfl, read .ctrl (by decide) rfl,
    read .status (by decide) (statusWord_eq_sum s), read .cmd (by decide) rfl,
    read .len (by decide) (BitVec.ofNat_toNat 32 _).symm,
    read .edgePos (by decide) rfl, read .liqPos (by decide) rfl, read .thrNear (by decide) rfl,
    read .bndNear (by decide) rfl, read .thrFar (by decide) rfl, read .bndFar (by decide) rfl,
    read .flags (by decide) (flagsWord_eq_sum s.results),
    read .peakCount (by decide) (BitVec.ofNat_toNat 32 _).symm⟩

/-- Settles O10: offset `o` of entry `k` names the field at `o`, and the field's word is zero-extended. -/
theorem readPeakTable : Obligations.ReadPeakTable := by
  intro s k e answers
  have read (o : Nat) (ho : o < 32 ∧ o % 4 = 0) {w : Word} (hw : peakWord e (peakFieldAt o) = w) : answers o w :=
    hw ▸ rd32_at (offsetOf_peak k o ho) s
  exact ⟨read 0x00 (by decide) rfl, read 0x04 (by decide) (BitVec.ofNat_toNat 32 _).symm, read 0x08 (by decide) rfl,
    read 0x0C (by decide) rfl, read 0x10 (by decide) (BitVec.ofNat_toNat 32 _).symm,
    read 0x14 (by decide) (roleCode_word e.role), read 0x18 (by decide) rfl, read 0x1C (by decide) rfl⟩

/-- Settles O11: the offset names SAMPLE[j], whose word is the sample, zero-extended. -/
theorem readSampleStore : Obligations.ReadSampleStore := by
  intro s j
  rw [BitVec.ofNat_toNat]
  exact rd32_at (offsetOf_sample j) s

/-! ### Writes -/

/-- A write that BUSY refuses sets ERR_BUSY, and it is answered OK as every write is (60_exceptions.md R203). -/
theorem respondWrite_unlessBusy (s a : State) :
    (s.busy = true → Host.Outcome.next (φ := Fault) (ρ := Refusal) (respondWrite (unlessBusy s a)) =
      .next { s with errBusy := true, response := some ⟨.ok, none⟩ }) ∧
    (s.busy = false → Host.Outcome.next (φ := Fault) (ρ := Refusal) (respondWrite (unlessBusy s a)) =
      .next { a with response := some ⟨.ok, none⟩ }) := by
  refine ⟨fun hb => ?_, fun hb => ?_⟩
  · rw [unlessBusy_busy s a hb]
    rfl
  · rw [unlessBusy_idle s a hb]
    rfl

/-- Settles O13: the register at such an offset ignores the write. -/
theorem writeToReadOnlyIsIgnored : Obligations.WriteToReadOnlyIsIgnored := by
  intro s off d h4 hoff
  have hignores : ignoresWrites (regAt off.toNat) = true :=
    regAt_ignoring _ (by omega) (by omega) (by omega) (by omega) (by omega)
  rw [execWr32_aligned off d s h4, writeWord, writeReg_ignored d s _ hignores, respondWrite_eq]

/-- Settles O14: offset 0x008 names CTRL. -/
theorem writeCtrlSetsIrqEnable : Obligations.WriteCtrlSetsIrqEnable :=
  fun s d => ⟨wr32_at (off := 0x008) (r := .ctrl) (by decide) s d, rfl⟩

/-- Settles O15: offset 0x00C names STATUS, and a bit stays set where it was set and 0 is written. -/
theorem writeStatusAcknowledges : Obligations.WriteStatusAcknowledges := by
  intro s d
  have cleared (old bit : Bool) : (old && !bit) = if bit then false else old := by cases bit <;> simp
  rw [wr32_at (off := 0x00C) (r := .status) (by decide) s d, writeReg, ackStatus, cleared, cleared, cleared,
    respondWrite_eq]

/-- Settles O16: offset 0x014 names LEN, and what is stored is clamped. -/
theorem writeLenClampsOrIsRefused : Obligations.WriteLenClampsOrIsRefused := by
  intro s d
  rw [wr32_at (off := 0x014) (r := .len) (by decide) s d, writeReg, writeLen, ← clampLen_eq_min]
  exact respondWrite_unlessBusy s _

/-- Settles O17: the offset names SAMPLE[j], and what is stored is the low half of the word. -/
theorem writeSampleStoresOrIsRefused : Obligations.WriteSampleStoresOrIsRefused := by
  intro s j d off
  have hoff : OffsetOf off (.sample j) := offsetOf_sample j
  rw [wr32_at hoff s d, writeReg, writeSample, ← sampleBits_eq_mod]
  exact respondWrite_unlessBusy s _

/-! ### The bytes a sample write changes -/

theorem readByte_congr {s t : State} {a : Nat} (h : readReg t (regAt (4 * (a / 4))) = readReg s (regAt (4 * (a / 4)))) :
    readByte t a = readByte s a := by
  rw [readByte, readByte, readWord, readWord, h]

/-- Byte `b` of the register at `off`. -/
theorem readByte_at {off : Offset} {r : Reg} (h : OffsetOf off r) (s : State) (b : Nat) (hb : b < 4) :
    readByte s (off.toNat + b) = (readReg s r).extractLsb' (8 * b) 8 := by
  obtain ⟨h4, hreg⟩ := h
  have hword : 4 * ((off.toNat + b) / 4) = off.toNat := by omega
  have hbyte : (off.toNat + b) % 4 = b := by omega
  rw [readByte, readWord, hword, hbyte, hreg]

/-- The sample store is read at the sample registers only. -/
theorem readReg_of_samples (s : State) (S : Vector Sample 224) (o : Option BusResponse) (r : Reg)
    (h : ∀ i : Fin 224, r = .sample i → S[i] = s.samples[i]) :
    readReg { s with samples := S, response := o } r = readReg s r := by
  cases r with
  | sample i => exact congrArg (BitVec.setWidth 32) (h i rfl)
  | _ => rfl

/-- ERR_BUSY is read at STATUS only. -/
theorem readReg_of_errBusy (s : State) (e : Bool) (o : Option BusResponse) (r : Reg) (h : r ≠ .status) :
    readReg { s with errBusy := e, response := o } r = readReg s r := by
  cases r with
  | status => exact absurd rfl h
  | _ => rfl

/-- A byte in the low half of the word of a sample that was written. -/
theorem lowHalf_byte (d : Word) (i : Nat) (hi : i + 8 ≤ 16) :
    ((d.extractLsb' 0 16).setWidth 32).extractLsb' i 8 = d.extractLsb' i 8 := by
  ext k hk
  have h16 : i + k < 16 := by omega
  have h32 : i + k < 32 := by omega
  simp [h16, h32]

/-- A byte in the high half of the word of a sample. -/
theorem highHalf_byte (x : Sample) (i : Nat) (hi : 16 ≤ i) : (x.setWidth 32).extractLsb' i 8 = 0 := by
  ext k hk
  have hwide : 16 ≤ i + k := by omega
  simp [hwide]

/-- Settles O18: a byte of the window is one of its word, a word changes only if its register reads what was written,
and the offset of that register is the one written. -/
theorem sampleWriteChangesItsBytesOnly : Obligations.SampleWriteChangesItsBytesOnly := by
  intro s t j d hexec
  obtain ⟨refused, accepted⟩ := writeSampleStoresOrIsRefused s j d
  rw [← sampleBits_eq_mod] at accepted
  refine ⟨fun hb => ?_, fun hb a _ ha => ?_⟩
  · cases hexec.symm.trans (accepted hb)
    refine ⟨fun a _ ha => readByte_congr (readReg_of_samples s _ _ _ fun i hi => ?_), ?_⟩
    · rw [sampleOffset_toNat] at ha
      have hoff := offset_of_sample hi
      have hne : j.val ≠ i.val := by omega
      exact Vector.getElem_set_ne j.isLt i.isLt hne
    · have written (b : Nat) (hlt : b < 4) := readByte_at (offsetOf_sample j)
        { s with samples := s.samples.set j (d.extractLsb' 0 16), response := some ⟨.ok, none⟩ } b hlt
      simp only [readReg, Fin.getElem_fin, Vector.getElem_set_self] at written
      exact ⟨(written 0 (by decide)).trans (lowHalf_byte d 0 (by decide)),
        (written 1 (by decide)).trans (lowHalf_byte d 8 (by decide)),
        (written 2 (by decide)).trans (highHalf_byte _ 16 (by decide)),
        (written 3 (by decide)).trans (highHalf_byte _ 24 (by decide))⟩
  · cases hexec.symm.trans (refused hb)
    refine readByte_congr (readReg_of_errBusy s _ _ _ fun hstatus => ?_)
    have hoff := offset_of_status hstatus
    omega

/-! ### Commands -/

/-- Settles O19: offset 0x010 names CMD, and what a write to CMD does is what the command of its word does. -/
theorem writeCmdDispatches : Obligations.WriteCmdDispatches := by
  intro s d
  rw [wr32_at (off := 0x010) (r := .cmd) (by decide) s d, writeReg]
  rcases runCommand_cases d s with ⟨rfl, hrun⟩ | ⟨rfl, hrun⟩ | ⟨rfl, hrun⟩ | ⟨hnop, hcalibrate, hclear, hrun⟩ <;>
    rw [hrun]
  · rfl
  · rfl
  · rfl
  · rw [if_neg hnop, if_neg hcalibrate, if_neg hclear]
    rfl

/-- Settles O21: NOP answers and does nothing else. -/
theorem nopChangesNothing : Obligations.NopChangesNothing := fun _ => rfl

/-- Settles O22: CALIBRATE starts a run unless BUSY refuses it. -/
theorem calibrateStartsOrIsRefused : Obligations.CalibrateStartsOrIsRefused :=
  fun s => (respondWrite_unlessBusy s _).symm

/-- Settles O23: CLEAR writes the registers of the sentinel, which are the reset values, unless BUSY refuses it. -/
theorem clearWritesSentinelOrIsRefused : Obligations.ClearWritesSentinelOrIsRefused := by
  intro s
  obtain ⟨refused, accepted⟩ := respondWrite_unlessBusy s { s with results := resultRegs sentinel, done := false }
  rw [sentinel_regs] at accepted
  exact ⟨accepted, refused⟩

end Sys2Proof.Proofs

/-! PROOFS. What a step does when a request is decoded and when it is the engine's turn (40_commands.md R100, R112), and
the fields of the result that the completion writes (R113, 45_thresholds.md R160 to R165). -/

namespace Sys2Proof.Proofs

open Sys2Proof Sys2Proof.Machine Sys2Proof.Safety

/-! ### Host steps and the engine's turn -/

theorem hostStep_of_decoded {r : Request} {i : Instr} (h : decodeRequest r = .ok i) (s : State) :
    hostStep r s = exec i s := by
  rw [hostStep, h]

theorem engineTurn_inbox (s : State) : (engineTurn s).inbox = s.inbox := by
  unfold engineTurn
  split <;> rfl

theorem engineTurn_busy {s : State} (hb : s.busy = true) : engineTurn s = drawLatency (complete s) := if_pos hb

theorem engineTurn_idle {s : State} (hb : s.busy = false) : engineTurn s = s := by
  rw [engineTurn, hb, if_neg Bool.false_ne_true]

/-- Settles O5: a request is taken and decoded if the engine can wait, and otherwise it stays in the inbox during the
engine's turn. -/
theorem stepRunsDecodedInstruction : Obligations.StepRunsDecodedInstruction := by
  intro s r rest i hi hdec
  refine ⟨fun hw => ?_, fun hd => ⟨step_of_due s ⟨hd, _, rest, hi, rfl⟩, (engineTurn_inbox s).trans hi⟩⟩
  rw [step_of_hostEvent hi hw]
  exact hostStep_of_decoded hdec _

/-- Settles O24: however the engine's turn comes about, it completes the run in progress, if there is one. -/
theorem completionWritesTheResult : Obligations.CompletionWritesTheResult := by
  intro s turn
  rw [step_of_engine s turn]
  refine ⟨fun hb => ?_, fun hb => ?_⟩
  · rw [engineTurn_busy (s := { s with inbox := afterEngine s.inbox }) hb]
    rfl
  · rw [engineTurn_idle (s := { s with inbox := afterEngine s.inbox }) hb]

/-! ### The fields of a result -/

theorem calibrate_of_long (S : Vector Sample 224) {len : Nat} (h : 171 ≤ len) :
    calibrate S len = analyse (smooth (extractWindow S)) := if_neg (Nat.not_lt.mpr h)

theorem resultOfPeaks_of_two (s : List Nat) {M : List EchoPeak} (h : 2 ≤ M.length) :
    resultOfPeaks s M = deriveResult s (classify M) (liquidIndex M) := if_neg (Nat.not_lt.mpr h)

/-- The greatest value over a far set that is not empty is that of a member than which no member has a greater one. -/
theorem exists_greatest (f : EchoPeak → Nat) (F : List EchoPeak) (h : F ≠ []) :
    ∃ q ∈ F, (∀ p ∈ F, f p ≤ f q) ∧ F.foldl (fun a q => max a (f q)) 0 = f q := by
  obtain ⟨-, hmax, hzero | ⟨q, hq, hval⟩⟩ := foldl_max_spec f F 0
  · obtain ⟨q, hq⟩ := List.exists_mem_of_ne_nil F h
    have hfq : f q = 0 := Nat.le_zero.mp (hzero ▸ hmax q hq)
    rw [hzero] at hmax
    exact ⟨q, hq, hfq.symm ▸ hmax, hzero.trans hfq.symm⟩
  · exact ⟨q, hq, hval.symm ▸ hmax, hval.symm⟩

theorem overFar_nil (g : List EchoPeak → Nat) : overFar g [] = none := rfl

theorem overFar_greatest (f : EchoPeak → Nat) (F : List EchoPeak) (h : F ≠ []) :
    ∃ q ∈ F, (∀ p ∈ F, f p ≤ f q) ∧ overFar (List.foldl (fun a q => max a (f q)) 0) F = some (f q) := by
  obtain ⟨q, hq, hmax, hval⟩ := exists_greatest f F h
  refine ⟨q, hq, hmax, ?_⟩
  rw [overFar, if_neg (by simpa using h), hval]

/-- Settles O51: the result is derived from the classified peaks, and the far search and the far threshold start from a
greatest member of the far set. -/
theorem resultFieldsFollowThePipeline : Obligations.ResultFieldsFollowThePipeline := by
  intro S len hlen s M P li c L R bn hM
  have hR : R = deriveResult s P li := (calibrate_of_long S hlen).trans (resultOfPeaks_of_two s hM)
  have boundaries (right : Option Nat) (h : overFar maxRightBound c.far = right) :
      (R.boundaryNear, R.boundaryFar) = orderBoundaries bn (farBoundary s right L + 40) := by
    rw [hR, ← h]
    rfl
  have threshold (amp : Option Nat) (h : overFar maxAmplitude c.far = amp) : R.thresholdFar = farThreshold amp := by
    rw [hR, ← h]
    rfl
  refine ⟨hR ▸ rfl, hR ▸ rfl, hR ▸ rfl, fun hnil => ?_, fun hne => ⟨?_, ?_⟩, hR ▸ rfl, hR ▸ rfl⟩
  · exact ⟨boundaries none (hnil ▸ overFar_nil _), threshold none (hnil ▸ overFar_nil _)⟩
  · obtain ⟨q, hq, hmax, hright⟩ := overFar_greatest EchoPeak.rightBound c.far hne
    exact ⟨q, hq, hmax, boundaries _ hright⟩
  · obtain ⟨q, hq, hmax, hamp⟩ := overFar_greatest EchoPeak.amplitude c.far hne
    exact ⟨q, hq, hmax, threshold _ hamp⟩

end Sys2Proof.Proofs

/-! PROOFS. The length check, the window and its smoothing (41_window_and_smoothing.md R120 to R122): a result depends
on the store only through the samples of the window, and a smoothed sample is a truncated mean of samples at most 2
away. -/

namespace Sys2Proof.Proofs

open Sys2Proof Sys2Proof.Machine

/-! ### The length check and the window -/

theorem calibrate_of_short (S : Vector Sample 224) {len : Nat} (h : len < 171) : calibrate S len = sentinel := if_pos h

/-- Settles O33: the length check comes before the samples are read. -/
theorem shortProfileGivesSentinel : Obligations.ShortProfileGivesSentinel :=
  fun S _ h => calibrate_of_short S h

theorem rawSample_of_lt (S : Vector Sample 224) {j : Nat} (h : j < 224) : rawSample S j = S[j].toNat := by
  rw [rawSample, List.getD_eq_getElem _ _ (by simpa using h), Vector.getElem_toList]

/-- R121: stores that agree on the raw indices 40..170 have the same window. -/
theorem extractWindow_congr {S S' : Vector Sample 224}
    (h : ∀ j : Fin 224, 40 ≤ j.val → j.val ≤ 170 → S[j] = S'[j]) : extractWindow S = extractWindow S' := by
  refine List.map_congr_left fun i hi => ?_
  have hi' : i < 131 := List.mem_range.mp hi
  have hj : 40 + i < 224 := by omega
  have hsample : S[40 + i] = S'[40 + i] := h ⟨40 + i, hj⟩ (Nat.le_add_right 40 i) (by simp only; omega)
  rw [rawSample_of_lt S hj, rawSample_of_lt S' hj, hsample]

/-- Settles O34: from LEN = 171 on, the result is a function of the window alone. -/
theorem samplesOutsideTheWindowNeverMatter : Obligations.SamplesOutsideTheWindowNeverMatter := by
  intro S S' len len' hlen hlen' hagree
  rw [calibrate_of_long S hlen, calibrate_of_long S' hlen', extractWindow_congr hagree]

/-! ### Smoothing -/

/-- The block's width of 5 smooths every coordinate over 2 samples to each side. -/
theorem smooth_eq_map (w : List Nat) : smooth w = (List.range 131).map (smoothAt 2 w) := rfl

theorem length_smooth (w : List Nat) : (smooth w).length = 131 := by simp [smooth_eq_map]

theorem sampleAt_smooth (w : List Nat) {i : Nat} (h : i < 131) : sampleAt (smooth w) i = smoothAt 2 w i :=
  sampleAt_range_map _ _ _ h

/-- The sum over a span inside the window is that of its samples; `Finset.Icc` of naturals is that list of indices by
definition. -/
theorem sum_slice (s : List Nat) {lo hi : Nat} (h : hi < s.length) (hlo : lo ≤ hi + 1) :
    (slice s lo hi).sum = ∑ k ∈ Finset.Icc lo hi, sampleAt s k := by
  rw [slice_eq_map s lo hi h hlo]
  rfl

theorem smoothAt_eq_mean (half : Nat) (w : List Nat) (i : Nat) (hw : w.length = 131) (hi : i < 131) :
    smoothAt half w i =
      (∑ k ∈ Finset.Icc (i - half) (min 130 (i + half)), sampleAt w k) / (min 130 (i + half) - (i - half) + 1) := by
  have hsum := sum_slice w (lo := i - half) (hi := min 130 (i + half)) (by omega) (by omega)
  rw [← hsum]
  rfl

/-- Settles O35: at each coordinate of the window, by the sum over its clipped span. -/
theorem smoothIsTruncatedMean : Obligations.SmoothIsTruncatedMean :=
  fun w i hw hi => ⟨length_smooth w, (sampleAt_smooth w hi).trans (smoothAt_eq_mean 2 w i hw hi)⟩

/-- Settles O36: a bound on the window's samples bounds every mean of them. -/
theorem smoothStaysBelowTheMaximum : Obligations.SmoothStaysBelowTheMaximum := by
  intro w m i hw hbound _
  have hmem : ∀ x ∈ w, x ≤ m := by
    intro x hx
    obtain ⟨k, hk, rfl⟩ := List.mem_iff_getElem.mp hx
    have hsample : sampleAt w k = w[k] := List.getD_eq_getElem w 0 hk
    exact hsample ▸ hbound k (hw ▸ hk)
  exact sampleAt_le _ m i (smooth_le w m hmem)

end Sys2Proof.Proofs

/-! PROOFS. Peak detection on the smoothed window (42_peak_detection.md R130 to R136): which indices the scan keeps, how
far the walks to the two bounds go, and the height of a candidate above its valleys. -/

namespace Sys2Proof.Proofs

open Sys2Proof Sys2Proof.Machine

/-! ### The scan -/

/-- A detected peak is the record of an interior index that passes the peak test. -/
theorem mem_detect {s : List Nat} {p : EchoPeak} (hp : p ∈ detect s) :
    ∃ i, i ≤ 129 ∧ candidate s i = true ∧ p = candidateRecord s i := by
  rw [detect_eq] at hp
  obtain ⟨i, hi, rfl⟩ := List.mem_map.mp hp
  obtain ⟨hmem, hcand⟩ := List.mem_filter.mp (List.mem_of_mem_take hi)
  have hbounds := List.mem_range'_1.mp hmem
  exact ⟨i, by omega, hcand, rfl⟩

theorem detect_positions (s : List Nat) :
    (detect s).map (fun p => p.position) = ((List.range' 1 129).filter (candidate s)).take 32 := by
  rw [detect_eq, List.map_map]
  exact List.map_id _

theorem candidate_eq_decide (s : List Nat) :
    candidate s = fun i => decide (sampleAt s (i - 1) < sampleAt s i ∧
      sampleAt s (i + 1) ≤ sampleAt s i ∧ 225 ≤ sampleAt s i) := by
  funext i
  rw [Bool.eq_iff_iff, decide_eq_true_iff, candidate_iff]

/-- Settles O37: the scan is a filter cut at 32, and the fields are those of each candidate's record. -/
theorem detectKeepsTheFirst32Candidates : Obligations.DetectKeepsTheFirst32Candidates := by
  intro s
  refine ⟨candidate_eq_decide s ▸ detect_positions s, fun p hp => ?_⟩
  obtain ⟨i, -, -, rfl⟩ := mem_detect hp
  exact ⟨rfl, rfl, rfl, rfl⟩

/-- R131: a candidate does not rise to its right neighbour, and a candidate there would need that rise. -/
theorem not_candidate_succ {s : List Nat} {i : Nat} (h : candidate s i = true) : ¬ candidate s (i + 1) = true := by
  intro hsucc
  obtain ⟨-, hfall, -⟩ := (candidate_iff s i).mp h
  obtain ⟨hrise, -, -⟩ := (candidate_iff s (i + 1)).mp hsucc
  exact Nat.not_lt.mpr hfall hrise

/-- Settles O38: the positions ascend, and no two of them are neighbours. -/
theorem candidatesAreAtLeastTwoApart : Obligations.CandidatesAreAtLeastTwoApart := by
  intro s
  refine (detect_ascending s).imp_of_mem fun {p q} hp hq hlt => ?_
  obtain ⟨i, -, hi, rfl⟩ := mem_detect hp
  obtain ⟨j, -, hj, rfl⟩ := mem_detect hq
  have hne : j ≠ i + 1 := fun e => not_candidate_succ hi (e ▸ hj)
  exact Nat.lt_of_le_of_ne hlt (Ne.symm hne)

/-! ### The walk to the left bound -/

/-- One step of the walk to the left: to the next sample where it does not rise and exceeds 90, else no further. -/
theorem leftBound_succ_cases (s : List Nat) (l : Nat) :
    ((sampleAt s l ≤ sampleAt s (l + 1) ∧ 90 < sampleAt s l) ∧ leftBound s (l + 1) = leftBound s l) ∨
    (¬ (sampleAt s l ≤ sampleAt s (l + 1) ∧ 90 < sampleAt s l) ∧ leftBound s (l + 1) = l + 1) := by
  rw [← boundExtends_iff]
  by_cases h : boundExtends (sampleAt s (l + 1)) (sampleAt s l) = true
  · exact .inl ⟨h, if_pos h⟩
  · exact .inr ⟨h, if_neg h⟩

theorem leftBound_walk (s : List Nat) (i m : Nat) (hm : leftBound s i ≤ m) (hi : m < i) :
    sampleAt s m ≤ sampleAt s (m + 1) ∧ 90 < sampleAt s m := by
  induction i with
  | zero => exact absurd hi (Nat.not_lt_zero m)
  | succ i ih =>
    obtain ⟨hstep, heq⟩ | ⟨-, heq⟩ := leftBound_succ_cases s i
    · obtain hlt | rfl := Nat.lt_succ_iff_lt_or_eq.mp hi
      · exact ih (heq ▸ hm) hlt
      · exact hstep
    · omega

theorem leftBound_stops (s : List Nat) (i : Nat) :
    leftBound s i = 0 ∨ sampleAt s (leftBound s i) < sampleAt s (leftBound s i - 1) ∨
      sampleAt s (leftBound s i - 1) ≤ 90 := by
  induction i with
  | zero => exact .inl rfl
  | succ i ih =>
    obtain ⟨-, heq⟩ | ⟨hstop, heq⟩ := leftBound_succ_cases s i
    · rwa [heq]
    · rw [heq, Nat.add_sub_cancel]
      omega

/-- Settles O39, by the recursion of the walk. -/
theorem leftBoundIsMaximalWalk : Obligations.LeftBoundIsMaximalWalk :=
  fun s i => ⟨leftBound_le s i, leftBound_walk s i, leftBound_stops s i⟩

theorem sampleAt_leftBound_le (s : List Nat) (i : Nat) : sampleAt s (leftBound s i) ≤ sampleAt s i := by
  induction i with
  | zero => exact Nat.le_refl _
  | succ i ih =>
    obtain ⟨⟨hfall, -⟩, heq⟩ | ⟨-, heq⟩ := leftBound_succ_cases s i
    · exact heq ▸ ih.trans hfall
    · rw [heq]

/-! ### The walk to the right bound -/

/-- One step of the walk to the right: to the next sample where it does not rise and exceeds 90, else no further. -/
theorem rightWalk_succ_cases (s : List Nat) (n r : Nat) :
    ((sampleAt s (r + 1) ≤ sampleAt s r ∧ 90 < sampleAt s (r + 1)) ∧
      rightWalk s (n + 1) r = rightWalk s n (r + 1)) ∨
    (¬ (sampleAt s (r + 1) ≤ sampleAt s r ∧ 90 < sampleAt s (r + 1)) ∧ rightWalk s (n + 1) r = r) := by
  rw [← boundExtends_iff]
  by_cases h : boundExtends (sampleAt s r) (sampleAt s (r + 1)) = true
  · exact .inl ⟨h, if_pos h⟩
  · exact .inr ⟨h, if_neg h⟩

theorem le_rightWalk (s : List Nat) (n r : Nat) : r ≤ rightWalk s n r := by
  induction n generalizing r with
  | zero => exact Nat.le_refl r
  | succ n ih =>
    obtain ⟨-, heq⟩ | ⟨-, heq⟩ := rightWalk_succ_cases s n r
    · exact heq ▸ (Nat.le_succ r).trans (ih (r + 1))
    · exact heq.ge

theorem rightWalk_walk (s : List Nat) (n r m : Nat) (hr : r ≤ m) (hm : m < rightWalk s n r) :
    sampleAt s (m + 1) ≤ sampleAt s m ∧ 90 < sampleAt s (m + 1) := by
  induction n generalizing r with
  | zero => exact absurd hm (Nat.not_lt.mpr hr)
  | succ n ih =>
    obtain ⟨hstep, heq⟩ | ⟨-, heq⟩ := rightWalk_succ_cases s n r
    · obtain rfl | hlt := Nat.eq_or_lt_of_le hr
      · exact hstep
      · exact ih (r + 1) hlt (heq ▸ hm)
    · omega

theorem rightWalk_stops (s : List Nat) (n r : Nat) :
    rightWalk s n r = r + n ∨ sampleAt s (rightWalk s n r) < sampleAt s (rightWalk s n r + 1) ∨
      sampleAt s (rightWalk s n r + 1) ≤ 90 := by
  induction n generalizing r with
  | zero => exact .inl rfl
  | succ n ih =>
    obtain ⟨-, heq⟩ | ⟨hstop, heq⟩ := rightWalk_succ_cases s n r
    · rw [heq]
      exact (ih (r + 1)).imp_left fun h => h.trans (Nat.add_right_comm r 1 n)
    · rw [heq]
      omega

theorem rightBound_stops (s : List Nat) (i : Nat) (hi : i ≤ 130) :
    rightBound s i = 130 ∨ sampleAt s (rightBound s i) < sampleAt s (rightBound s i + 1) ∨
      sampleAt s (rightBound s i + 1) ≤ 90 :=
  (rightWalk_stops s (130 - i) i).imp_left fun h => h.trans (Nat.add_sub_cancel' hi)

/-- Settles O40, by the recursion of the walk, which has as many steps as there are indices up to 130. -/
theorem rightBoundIsMaximalWalk : Obligations.RightBoundIsMaximalWalk :=
  fun s i hi => ⟨le_rightWalk s _ i, rightBound_le s i hi, rightWalk_walk s _ i, rightBound_stops s i hi⟩

/-! ### Prominence -/

/-- The smallest sample of the two valley windows of the bounds l and r (42_peak_detection.md R134). -/
def valleyFloor (s : List Nat) (l r : Nat) : Nat := min (minOver s (l - 2) l) (minOver s r (min 130 (r + 2)))

/-- The indices of the two valley windows: 3 ending at l and 3 starting at r, clipped to 0..130. -/
def InValleys (l r k : Nat) : Prop := (l ≤ k + 2 ∧ k ≤ l) ∨ (r ≤ k ∧ k ≤ r + 2 ∧ k ≤ 130)

theorem prominence_eq (s : List Nat) (i l r : Nat) : prominence s i l r = sampleAt s i - valleyFloor s l r := rfl

section Valleys

variable {s : List Nat} {l r : Nat} (hs : s.length = 131) (hl : l ≤ 130) (hr : r ≤ 130)

include hs hl hr

theorem valleyFloor_le {k : Nat} (hk : InValleys l r k) : valleyFloor s l r ≤ sampleAt s k := by
  obtain ⟨-, hleft⟩ := minOver_spec s (l - 2) l (by omega) (by omega)
  obtain ⟨-, hright⟩ := minOver_spec s r (min 130 (r + 2)) (by omega) (by omega)
  obtain ⟨hlow, hhigh⟩ | ⟨hlow, hhigh, hend⟩ := hk
  · exact (Nat.min_le_left _ _).trans (hleft k (by omega) hhigh)
  · exact (Nat.min_le_right _ _).trans (hright k hlow (by omega))

theorem exists_valleyFloor : ∃ k, InValleys l r k ∧ valleyFloor s l r = sampleAt s k := by
  obtain ⟨⟨a, halow, hahigh, ha⟩, -⟩ := minOver_spec s (l - 2) l (by omega) (by omega)
  obtain ⟨⟨b, hblow, hbhigh, hb⟩, -⟩ := minOver_spec s r (min 130 (r + 2)) (by omega) (by omega)
  obtain ⟨hmin, -⟩ | ⟨hmin, -⟩ := min_cases (minOver s (l - 2) l) (minOver s r (min 130 (r + 2)))
  · exact ⟨a, .inl ⟨by omega, hahigh⟩, hmin.trans ha⟩
  · exact ⟨b, .inr ⟨hblow, by omega, by omega⟩, hmin.trans hb⟩

end Valleys

/-- R134: the left bound is in its valley window, and its sample is at most the candidate's, so nothing is cut off. -/
theorem sampleAt_eq_prominence_add (s : List Nat) (i : Nat) (hs : s.length = 131) (hi : i ≤ 130) :
    sampleAt s i =
      prominence s i (leftBound s i) (rightBound s i) + valleyFloor s (leftBound s i) (rightBound s i) := by
  have hbound : valleyFloor s (leftBound s i) (rightBound s i) ≤ sampleAt s (leftBound s i) :=
    valleyFloor_le hs ((leftBound_le s i).trans hi) (rightBound_le s i hi) (.inl ⟨by omega, Nat.le_refl _⟩)
  rw [prominence_eq, Nat.sub_add_cancel (hbound.trans (sampleAt_leftBound_le s i))]

/-- Settles O41: the amplitude is the prominence on top of the valley floor, which some valley sample meets and none
falls below. -/
theorem prominenceIsHeightAboveLowerValley : Obligations.ProminenceIsHeightAboveLowerValley := by
  intro s hs p hp
  obtain ⟨i, hi, -, rfl⟩ := mem_detect hp
  have hheight := sampleAt_eq_prominence_add s i hs (by omega)
  have hl : leftBound s i ≤ 130 := (leftBound_le s i).trans (by omega)
  have hr : rightBound s i ≤ 130 := rightBound_le s i (by omega)
  obtain ⟨k, hk, hfloor⟩ := exists_valleyFloor hs hl hr
  refine ⟨⟨k, hk, hfloor ▸ hheight⟩, fun k hk => ?_⟩
  calc sampleAt s i
      = prominence s i (leftBound s i) (rightBound s i) + valleyFloor s (leftBound s i) (rightBound s i) := hheight
    _ ≤ prominence s i (leftBound s i) (rightBound s i) + sampleAt s k :=
        Nat.add_le_add_left (valleyFloor_le hs hl hr hk) _

end Sys2Proof.Proofs

/-! PROOFS. The merge test and the merged cluster, the walk over the candidates with its emission filter, and what every
merged peak keeps of the candidates it stands for (43_merging.md R141 to R145). -/

namespace Sys2Proof.Proofs

open Sys2Proof Sys2Proof.Machine Sys2Proof.Safety

/-! ### The merge test and the cluster -/

/-- R142: the model's sum and the spec's difference of positions bound the same pairs. -/
theorem mergeable_iff (cl c : EchoPeak) :
    mergeable cl c = true ↔ (c.position : Int) - cl.position ≤ 3 ∧
      max cl.amplitude c.amplitude * 7 < min cl.amplitude c.amplitude * 10 := by
  have hdist : c.position ≤ cl.position + 3 ↔ (c.position : Int) - cl.position ≤ 3 := by omega
  rw [mergeable, Bool.and_eq_true, decide_eq_true_iff, decide_eq_true_iff]
  exact and_congr_left' hdist

/-- R143: position and amplitude come from one and the same member, the taller one. -/
theorem absorb_representative (cl c : EchoPeak) :
    (cl.amplitude < c.amplitude ∧
      (absorb cl c).position = c.position ∧ (absorb cl c).amplitude = c.amplitude) ∨
    (c.amplitude ≤ cl.amplitude ∧
      (absorb cl c).position = cl.position ∧ (absorb cl c).amplitude = cl.amplitude) := by
  by_cases h : cl.amplitude < c.amplitude
  · exact .inl ⟨h, if_pos h, if_pos h⟩
  · exact .inr ⟨Nat.le_of_not_lt h, if_neg h, if_neg h⟩

theorem absorb_amplitude (cl c : EchoPeak) : (absorb cl c).amplitude = max cl.amplitude c.amplitude := by
  obtain ⟨hlt, -, hamp⟩ | ⟨hle, -, hamp⟩ := absorb_representative cl c
  · rw [hamp, Nat.max_eq_right (Nat.le_of_lt hlt)]
  · rw [hamp, Nat.max_eq_left hle]

theorem absorb_prominence (cl c : EchoPeak) :
    (absorb cl c).prominence = cl.prominence ∨ (absorb cl c).prominence = c.prominence :=
  max_choice cl.prominence c.prominence

theorem absorb_role (cl c : EchoPeak) : (absorb cl c).role = .unknown := rfl

/-- Settles O42: the test is arithmetic, and apart from the amplitude each field is as the definition writes it. -/
theorem mergeTestAndAbsorb : Obligations.MergeTestAndAbsorb :=
  fun cl c => ⟨mergeable_iff cl c, absorb_amplitude cl c, rfl, rfl, rfl, rfl, absorb_role cl c⟩

/-! ### The walk and the emission filter -/

theorem emit_of_le {cl : EchoPeak} (h : 60 ≤ cl.prominence) : emit cl = [cl] := if_pos h

theorem emit_of_lt {cl : EchoPeak} (h : cl.prominence < 60) : emit cl = [] := if_neg (Nat.not_le.mpr h)

theorem prominence_ge_of_mem_emit {cl p : EchoPeak} (h : p ∈ emit cl) : 60 ≤ p.prominence := by
  by_cases hcl : 60 ≤ cl.prominence
  · exact eq_of_mem_emit h ▸ hcl
  · rw [emit_of_lt (Nat.lt_of_not_le hcl)] at h
    cases h

/-- A mergeable candidate joins the running cluster. -/
theorem mergeWalk_cons_of_mergeable {cl c : EchoPeak} (h : mergeable cl c = true) (C : List EchoPeak) :
    mergeWalk cl (c :: C) = mergeWalk (absorb cl c) C := if_pos h

/-- A candidate that is not mergeable ends the running cluster and starts its own. -/
theorem mergeWalk_cons_of_not_mergeable {cl c : EchoPeak} (h : mergeable cl c = false) (C : List EchoPeak) :
    mergeWalk cl (c :: C) = emit cl ++ mergeWalk c C := if_neg (ne_true_of_eq_false h)

/-- R144: the walk puts nothing in its result but what the emission filter lets through. -/
theorem mergeWalk_prominence_ge (cl : EchoPeak) (C : List EchoPeak) : ∀ p ∈ mergeWalk cl C, 60 ≤ p.prominence := by
  induction C generalizing cl with
  | nil => exact fun _ => prominence_ge_of_mem_emit
  | cons c C ih =>
    cases h : mergeable cl c with
    | true => exact mergeWalk_cons_of_mergeable h C ▸ ih (absorb cl c)
    | false =>
      rw [mergeWalk_cons_of_not_mergeable h]
      exact List.forall_mem_append.mpr ⟨fun _ => prominence_ge_of_mem_emit, ih c⟩

theorem merge_prominence_ge (C : List EchoPeak) : ∀ p ∈ merge C, 60 ≤ p.prominence := by
  unfold merge
  cases sortByPosition C with
  | nil => exact List.forall_mem_nil _
  | cons c C => exact mergeWalk_prominence_ge c C

/-! ### The properties of the merged list -/

theorem merge_role (C : List EchoPeak) (h : ∀ c ∈ C, c.role = .unknown) : ∀ p ∈ merge C, p.role = .unknown :=
  merge_keeps (fun p => p.role = .unknown) (fun a b _ _ => absorb_role a b) C h

theorem detect_role (s : List Nat) : ∀ p ∈ detect s, p.role = .unknown := by
  intro p hp
  obtain ⟨i, -, -, rfl⟩ := mem_detect hp
  rfl

/-- Settles O43: the walk keeps the order, the amplitudes' bound and the role of the detected peaks, adds none, and
filters on the prominence. -/
theorem mergedPeaksProperties : Obligations.MergedPeaksProperties := fun s =>
  ⟨merge_ascending _ (detect_ascending s), (merge_length_le _).trans (detect_length_le s), fun p hp =>
    ⟨(merge_detectable _ (detect_detectable s) p hp).amplitude_ge, merge_prominence_ge _ p hp,
      merge_role _ (detect_role s) p hp⟩⟩

/-! ### Merging as a recursion on an ascending list -/

theorem merge_cons_of_ascending {c : EchoPeak} {C : List EchoPeak} (h : Ascending (c :: C)) :
    merge (c :: C) = mergeWalk c C := by
  rw [merge, sortByPosition_of_ascending _ h, mergeSorted]

theorem merge_singleton (c : EchoPeak) : merge [c] = emit c :=
  merge_cons_of_ascending (List.pairwise_singleton _ c)

theorem merge_cons_cons_of_mergeable {c d : EchoPeak} {C : List EchoPeak} (h : Ascending (c :: d :: C))
    (hm : mergeable c d = true) : merge (c :: d :: C) = merge (absorb c d :: C) := by
  rw [merge_cons_of_ascending h, merge_cons_of_ascending (absorb_ascending c d C h), mergeWalk_cons_of_mergeable hm]

theorem merge_cons_cons_of_not_mergeable {c d : EchoPeak} {C : List EchoPeak} (h : Ascending (c :: d :: C))
    (hm : mergeable c d = false) : merge (c :: d :: C) = emit c ++ merge (d :: C) := by
  rw [merge_cons_of_ascending h, merge_cons_of_ascending h.of_cons, mergeWalk_cons_of_not_mergeable hm]

/-! ### Which candidates a merged peak stands for -/

/-- The peak stands at the position and the height of one candidate of the list (43_merging.md R143). -/
def Represents (C : List EchoPeak) (p : EchoPeak) : Prop :=
  ∃ c ∈ C, p.position = c.position ∧ p.amplitude = c.amplitude

/-- The peak has the prominence of one candidate of the list: it is not recomputed (43_merging.md R145). -/
def InheritsProminence (C : List EchoPeak) (p : EchoPeak) : Prop := ∃ c ∈ C, p.prominence = c.prominence

theorem absorb_represents {C : List EchoPeak} (a b : EchoPeak) (ha : Represents C a) (hb : Represents C b) :
    Represents C (absorb a b) := by
  obtain ⟨-, hpos, hamp⟩ | ⟨-, hpos, hamp⟩ := absorb_representative a b
  · rwa [Represents, hpos, hamp]
  · rwa [Represents, hpos, hamp]

theorem absorb_inheritsProminence {C : List EchoPeak} (a b : EchoPeak) (ha : InheritsProminence C a)
    (hb : InheritsProminence C b) : InheritsProminence C (absorb a b) := by
  obtain hprom | hprom := absorb_prominence a b
  · rwa [InheritsProminence, hprom]
  · rwa [InheritsProminence, hprom]

theorem merge_represents (C : List EchoPeak) : ∀ p ∈ merge C, Represents C p :=
  merge_keeps (Represents C) absorb_represents C fun c hc => ⟨c, hc, rfl, rfl⟩

theorem merge_inheritsProminence (C : List EchoPeak) : ∀ p ∈ merge C, InheritsProminence C p :=
  merge_keeps (InheritsProminence C) absorb_inheritsProminence C fun c hc => ⟨c, hc, rfl⟩

/-- Settles O44: the recursion of the walk, case by case, and what absorbing keeps of the candidates. -/
theorem clustersRepresentCandidates : Obligations.ClustersRepresentCandidates := by
  refine ⟨rfl, merge_singleton, fun c d C h => ?_, fun s => ?_⟩
  · refine ⟨merge_cons_cons_of_mergeable h, fun hm hprom => ?_, fun hm hprom => ?_, absorb_ascending c d C h, h.of_cons⟩
    · rw [merge_cons_cons_of_not_mergeable h hm, emit_of_le hprom, List.singleton_append]
    · rw [merge_cons_cons_of_not_mergeable h hm, emit_of_lt hprom, List.nil_append]
  · exact ⟨detect_ascending s, fun p hp => ⟨merge_represents _ p hp, merge_inheritsProminence _ p hp⟩⟩

end Sys2Proof.Proofs

/-! PROOFS. Classification and edge-cluster extension (44_classification.md R150 to R157): which peak the scan for the
Liquid keeps, which peak between Edge and Liquid is the strongest, and the cluster each outcome gives. -/

namespace Sys2Proof.Proofs

open Sys2Proof Sys2Proof.Machine Sys2Proof.Safety

/-! ### Roles -/

/-- Settles O45: the Liquid index is in range, and each record takes the role of its index alone. -/
theorem classifyGivesEachPeakOneRole : Obligations.ClassifyGivesEachPeakOneRole := fun P h =>
  have ⟨hpos, hlt⟩ := liquidIndex_range P h
  ⟨hpos, hlt, classify_length P, peakAt_classify P⟩

/-! ### The scan for the Liquid peak -/

/-- The peak at `k` is one of those after the first and before `n`, and lies strictly beyond the limit
(44_classification.md R153). -/
def BeyondLimit (P : List EchoPeak) (lim n k : Nat) : Prop := 1 ≤ k ∧ k < n ∧ lim < (peakAt P k).position

/-- An answer of the scan over the peaks before `n`: the first of the highest ones beyond the limit, if any lies
there (44_classification.md R153). -/
def FirstHighestBeyond (P : List EchoPeak) (lim n : Nat) : Option Nat → Prop
  | none   => ∀ k, ¬ BeyondLimit P lim n k
  | some b => BeyondLimit P lim n b ∧ ∀ k, BeyondLimit P lim n k →
      (peakAt P k).amplitude ≤ (peakAt P b).amplitude ∧ (k < b → (peakAt P k).amplitude < (peakAt P b).amplitude)

section Scan

variable {P : List EchoPeak} {lim n k : Nat}

theorem liquidScanStep_of_le (li : Option Nat) (h : (peakAt P k).position ≤ lim) : liquidScanStep P lim li k = li :=
  if_neg (Nat.not_lt.mpr h)

theorem liquidScanStep_none (h : lim < (peakAt P k).position) : liquidScanStep P lim none k = some k := if_pos h

theorem liquidScanStep_some (b : Nat) (h : lim < (peakAt P k).position) :
    liquidScanStep P lim (some b) k =
      if (peakAt P b).amplitude < (peakAt P k).amplitude then some k else some b := if_pos h

theorem beyondLimit_succ_iff :
    BeyondLimit P lim (n + 1) k ↔ BeyondLimit P lim n k ∨ k = n ∧ BeyondLimit P lim (n + 1) n := by
  constructor
  · rintro ⟨hpos, hlt, hlim⟩
    rcases Nat.lt_succ_iff_lt_or_eq.mp hlt with hlt | rfl
    · exact .inl ⟨hpos, hlt, hlim⟩
    · exact .inr ⟨rfl, hpos, hlt, hlim⟩
  · rintro (⟨hpos, hlt, hlim⟩ | ⟨rfl, hn⟩)
    · exact ⟨hpos, hlt.trans n.lt_succ_self, hlim⟩
    · exact hn

/-- A peak at or before the limit is no candidate: the answer stays. -/
theorem FirstHighestBeyond.skip {li : Option Nat} (hli : FirstHighestBeyond P lim n li)
    (h : (peakAt P n).position ≤ lim) : FirstHighestBeyond P lim (n + 1) li := by
  have hsame (k : Nat) : BeyondLimit P lim (n + 1) k ↔ BeyondLimit P lim n k := by
    rw [beyondLimit_succ_iff, or_iff_left]
    exact fun ⟨_, _, _, hlim⟩ => hlim.not_ge h
  cases li with
  | none => exact fun k hk => hli k ((hsame k).mp hk)
  | some b =>
    obtain ⟨hb, hmax⟩ := hli
    exact ⟨(hsame b).mpr hb, fun k hk => hmax k ((hsame k).mp hk)⟩

/-- One step of the scan, at the peak `n`. -/
theorem FirstHighestBeyond.step {li : Option Nat} (hli : FirstHighestBeyond P lim n li) (hn : 1 ≤ n) :
    FirstHighestBeyond P lim (n + 1) (liquidScanStep P lim li n) := by
  rcases Nat.lt_or_ge lim (peakAt P n).position with hlim | hle
  · have hnew : BeyondLimit P lim (n + 1) n := ⟨hn, n.lt_succ_self, hlim⟩
    cases li with
    | none =>
      rw [liquidScanStep_none hlim]
      refine ⟨hnew, fun k hk => ?_⟩
      rcases beyondLimit_succ_iff.mp hk with hold | ⟨rfl, -⟩
      · exact absurd hold (hli k)
      · exact ⟨le_refl _, fun h => absurd h (lt_irrefl k)⟩
    | some b =>
      obtain ⟨hb, hmax⟩ := hli
      rw [liquidScanStep_some b hlim]
      split
      next hhigher =>
        refine ⟨hnew, fun k hk => ?_⟩
        rcases beyondLimit_succ_iff.mp hk with hold | ⟨rfl, -⟩
        · have hlt := (hmax k hold).1.trans_lt hhigher
          exact ⟨hlt.le, fun _ => hlt⟩
        · exact ⟨le_refl _, fun h => absurd h (lt_irrefl k)⟩
      next hnot =>
        refine ⟨beyondLimit_succ_iff.mpr (.inl hb), fun k hk => ?_⟩
        rcases beyondLimit_succ_iff.mp hk with hold | ⟨rfl, -⟩
        · exact hmax k hold
        · obtain ⟨-, hbk, -⟩ := hb
          exact ⟨Nat.not_lt.mp hnot, fun h => absurd h hbk.not_gt⟩
  · rw [liquidScanStep_of_le li hle]
    exact hli.skip hle

theorem liquidScan_firstHighest (P : List EchoPeak) (lim m : Nat) :
    FirstHighestBeyond P lim (1 + m) ((List.range' 1 m).foldl (liquidScanStep P lim) none) := by
  induction m with
  | zero => exact fun k ⟨hpos, hlt, _⟩ => hlt.not_ge hpos
  | succ m ih =>
    rw [List.range'_1_concat, List.foldl_concat]
    exact ih.step (Nat.le_add_right 1 m)

end Scan

theorem liquidIndex_of_two {P : List EchoPeak} (h : P.length = 2) : liquidIndex P = 1 := if_pos h

/-- R153: of three or more peaks, the Liquid index is the scan's answer, or else that of the last peak. -/
theorem liquidIndex_of_three {P : List EchoPeak} (h : 3 ≤ P.length) :
    ∃ li, FirstHighestBeyond P (liquidLimit (peakAt P 0).position) P.length li ∧
      liquidIndex P = li.getD (P.length - 1) := by
  have hscan := liquidScan_firstHighest P (liquidLimit (peakAt P 0).position) (P.length - 1)
  rw [Nat.add_sub_cancel' (by omega)] at hscan
  refine ⟨_, hscan, ?_⟩
  rw [liquidIndex, if_neg (by omega)]
  split
  next hsome => rw [hsome, Option.getD_some]
  next hnone => rw [hnone, Option.getD_none]

/-- Settles O46: the scan keeps the first of the highest peaks beyond the limit. -/
theorem liquidIsHighestBeyondLimit : Obligations.LiquidIsHighestBeyondLimit := by
  refine fun P => ⟨liquidIndex_of_two, fun hlen _ => ?_⟩
  obtain ⟨li, hscan, hli⟩ := liquidIndex_of_three hlen
  rw [hli]
  cases li with
  | none => exact ⟨fun ⟨k, hk⟩ => absurd hk (hscan k), fun _ => rfl⟩
  | some b => exact ⟨fun _ => hscan, fun hnot => absurd ⟨b, hscan.1⟩ hnot⟩

/-! ### The strongest peak between Edge and Liquid -/

theorem interference_eq (P : List EchoPeak) : interference P = P.filter fun q => decide (q.role = .interference) := rfl

theorem mem_betweenPeaks {P : List EchoPeak} {E L q : EchoPeak} :
    q ∈ betweenPeaks P E L ↔
      q ∈ P ∧ q.role = .interference ∧ E.position < q.position ∧ q.position < L.position := by
  simp only [betweenPeaks, interference_eq, List.mem_filter, Bool.and_eq_true, decide_eq_true_eq, and_assoc]

theorem betweenPeaks_ascending {P : List EchoPeak} (E L : EchoPeak) (h : Ascending P) :
    Ascending (betweenPeaks P E L) :=
  (h.filter _).filter _

/-- R155: in an ascending list, the earliest of the peaks that no peak exceeds is the strongest one. -/
theorem strongest_eq_some {B : List EchoPeak} {st : EchoPeak} (hB : Ascending B) (hst : st ∈ B)
    (hmax : ∀ q ∈ B, q.amplitude ≤ st.amplitude)
    (hfirst : ∀ q ∈ B, q.amplitude = st.amplitude → st.position ≤ q.position) : strongest B = some st := by
  have hval : st.amplitude = maxAmplitude B := (le_maxAmplitude hst).antisymm (maxAmplitude_le B _ hmax)
  obtain ⟨before, after, rfl⟩ := List.append_of_mem hst
  refine List.find?_eq_some_iff_append.mpr ⟨beq_iff_eq.mpr hval, before, after, rfl, fun q hq => ?_⟩
  obtain ⟨-, -, hbefore⟩ := List.pairwise_append.mp hB
  have hlt : q.position < st.position := hbefore q hq st List.mem_cons_self
  have hne : q.amplitude ≠ maxAmplitude (before ++ st :: after) := fun he =>
    hlt.not_ge (hfirst q (List.mem_append_left _ hq) (he.trans hval.symm))
  simpa using hne

/-! ### The cluster -/

theorem edgeCluster_of_strong {P : List EchoPeak} {li : Nat} {st : EchoPeak}
    (hst : strongest (betweenPeaks P (peakAt P 0) (peakAt P li)) = some st)
    (hge : (peakAt P 0).amplitude ≤ st.amplitude) : edgeCluster P li = extendedCluster P st := by
  rw [edgeCluster, hst]
  exact if_pos hge

theorem edgeCluster_of_weak {P : List EchoPeak} {li : Nat}
    (h : ∀ q ∈ betweenPeaks P (peakAt P 0) (peakAt P li), q.amplitude < (peakAt P 0).amplitude) :
    edgeCluster P li = plainCluster P (peakAt P 0) := by
  unfold edgeCluster
  split
  next => rfl
  next st hst => exact if_neg (h st (List.mem_of_find?_eq_some hst)).not_ge

/-- R156: the far set of an extended cluster. -/
theorem extendedCluster_far (P : List EchoPeak) (st : EchoPeak) :
    (extendedCluster P st).far = P.filter fun q => decide (q.role = .interference ∧ st.position < q.position) := by
  simp [extendedCluster, interference_eq, List.filter_filter, Bool.and_comm]

/-- Settles O47: the first of the strongest peaks between is the one the cluster is tested against. -/
theorem edgeClusterExtends : Obligations.EdgeClusterExtends := by
  intro P li E L between
  have hbetween {q : EchoPeak} : q ∈ betweenPeaks P E L ↔ between q := mem_betweenPeaks
  refine ⟨fun st hP hst hge hmax hfirst => ?_, fun hweak => ?_⟩
  · have hstrongest : strongest (betweenPeaks P E L) = some st :=
      strongest_eq_some (betweenPeaks_ascending E L hP) (hbetween.mpr hst)
        (fun q hq => hmax q (hbetween.mp hq)) fun q hq => hfirst q (hbetween.mp hq)
    rw [edgeCluster_of_strong hstrongest hge]
    exact ⟨rfl, rfl, rfl, extendedCluster_far P st⟩
  · rw [edgeCluster_of_weak fun q hq => hweak q (hbetween.mp hq)]
    exact ⟨rfl, rfl, rfl, interference_eq P⟩

end Sys2Proof.Proofs

/-! PROOFS. Thresholds and boundaries (45_thresholds.md R160 to R166): the scaled amplitudes, the ordering step, where
the search for a quiet run stops, and the order and the roles of every result. -/

namespace Sys2Proof.Proofs

open Sys2Proof Sys2Proof.Machine Sys2Proof.Safety

/-! ### The scaled amplitudes -/

theorem farThreshold_some (a : Nat) : farThreshold (some a) = farScale a := rfl

theorem farThreshold_none : farThreshold none = farScale 250 := rfl

/-- The truncated quotient of 2a + 5 by 10 lies within one half of 0.2·a (45_thresholds.md R163). -/
theorem twoTenths_rounded (a : Nat) :
    2 * a ≤ 10 * ((a * 2 + 5) / 10) + 5 ∧ 10 * ((a * 2 + 5) / 10) ≤ 2 * a + 5 := by
  omega

/-- Settles O49: both scalings by their formulas, and the default by the far one. -/
theorem thresholdScalings : Obligations.ThresholdScalings := by
  refine ⟨nearThreshold_eq, fun a => ?_, ?_, twoTenths_rounded⟩
  · rw [farThreshold_some, farScale_eq]
  · rw [farThreshold_none, farScale_eq]

/-! ### The ordering step -/

theorem orderBoundaries_of_lt {bn bf : Int} (h : bn < bf) : orderBoundaries bn bf = (bn, bf) := by
  rw [orderBoundaries, if_neg h.not_gt, if_neg h.ne']

theorem orderBoundaries_of_gt {bn bf : Int} (h : bf < bn) : orderBoundaries bn bf = (bf, bn) := if_pos h

theorem orderBoundaries_self (b : Int) : orderBoundaries b b = (b, b + 1) := by
  rw [orderBoundaries, if_neg (lt_irrefl b), if_pos rfl]

/-- Settles O50: one case for each order of the two boundaries. -/
theorem orderingGuarantee : Obligations.OrderingGuarantee := fun bn bf =>
  ⟨orderBoundaries_lt bn bf, orderBoundaries_of_lt, orderBoundaries_of_gt, fun h => h ▸ orderBoundaries_self bn⟩

/-! ### The search for a quiet run -/

/-- Three smoothed samples below 250 from `q` on, all of them before the Liquid position `L` (45_thresholds.md R162). -/
def QuietRun (s : List Nat) (L q : Nat) : Prop :=
  q + 2 < L ∧ sampleAt s q < 250 ∧ sampleAt s (q + 1) < 250 ∧ sampleAt s (q + 2) < 250

theorem quietRun_iff (s : List Nat) (L q : Nat) : QuietRun s L q ↔ q + 2 < L ∧ quietAt s q = true := by
  rw [QuietRun, quietAt_iff]

section Search

variable {s : List Nat} {L p q : Nat}

/-- One step of the search: it stops at a quiet run or where none fits before the Liquid peak, and else goes on. -/
theorem quietSearch_succ_cases (s : List Nat) (L n p : Nat) :
    (QuietRun s L p ∧ quietSearch s L (n + 1) p = some p) ∨
    (¬ QuietRun s L p ∧ p + 2 < L ∧ quietSearch s L (n + 1) p = quietSearch s L n (p + 1)) ∨
    (L ≤ p + 2 ∧ quietSearch s L (n + 1) p = none) := by
  rw [quietRun_iff]
  by_cases hfits : p + 2 < L
  · have hstep : quietSearch s L (n + 1) p = if quietAt s p then some p else quietSearch s L n (p + 1) := if_pos hfits
    by_cases hquiet : quietAt s p = true
    · exact .inl ⟨⟨hfits, hquiet⟩, hstep.trans (if_pos hquiet)⟩
    · exact .inr (.inl ⟨fun h => hquiet h.2, hfits, hstep.trans (if_neg hquiet)⟩)
  · exact .inr (.inr ⟨Nat.not_lt.mp hfits, if_neg hfits⟩)

theorem quietSearch_eq_none (n : Nat) (h : ∀ q, p ≤ q → ¬ QuietRun s L q) : quietSearch s L n p = none := by
  induction n generalizing p with
  | zero => rfl
  | succ n ih =>
    obtain ⟨hquiet, -⟩ | ⟨-, -, heq⟩ | ⟨-, heq⟩ := quietSearch_succ_cases s L n p
    · exact absurd hquiet (h p le_rfl)
    · exact heq.trans (ih fun q hq => h q (Nat.le_of_succ_le hq))
    · exact heq

/-- The search finds the first quiet run, if its starting points reach that far. -/
theorem quietSearch_eq_some (n : Nat) (hpq : p ≤ q) (hreach : q < p + n) (hq : QuietRun s L q)
    (hfirst : ∀ q', p ≤ q' → q' < q → ¬ QuietRun s L q') : quietSearch s L n p = some q := by
  induction n generalizing p with
  | zero => exact absurd hpq hreach.not_ge
  | succ n ih =>
    obtain ⟨hquiet, heq⟩ | ⟨hnot, -, heq⟩ | ⟨hend, -⟩ := quietSearch_succ_cases s L n p
    · have hp : p = q := hpq.eq_of_not_lt fun hlt => hfirst p le_rfl hlt hquiet
      exact hp ▸ heq
    · have hlt : p < q := hpq.lt_of_ne fun hp => hnot (hp ▸ hq)
      exact heq.trans (ih hlt (by omega) fun q' hle => hfirst q' (Nat.le_of_succ_le hle))
    · obtain ⟨hfits, -⟩ := hq
      omega

/-- A position found lies below the cap. -/
theorem farBoundary_of_found (hq : q + 2 < L) (h : quietSearch s L L p = some q) : farBoundary s (some p) L = q := by
  rw [farBoundary_eq, farBase, h, Option.getD_some]
  omega

/-- The default of 152 lies above the cap, which then decides. -/
theorem farBoundary_of_default {farRight : Option Nat} (hL : L ≤ 129) (h : farBase s farRight L = 152) :
    farBoundary s farRight L = (L : Int) - 2 := by
  rw [farBoundary_eq, h]
  omega

end Search

/-- Settles O48: a quiet run starts before L, and so within the starting points of the search. -/
theorem farBoundaryIsFirstQuietRun : Obligations.FarBoundaryIsFirstQuietRun := by
  refine fun s p L hL => ⟨fun q hpq hq hfirst => ?_, fun hnone => ?_, farBoundary_of_default hL rfl⟩
  · have hfits : q + 2 < L := hq.1
    exact farBoundary_of_found hfits (quietSearch_eq_some L hpq (by omega) hq hfirst)
  · have hsearch : quietSearch s L L p = none := quietSearch_eq_none L hnone
    refine farBoundary_of_default hL ?_
    rw [farBase, hsearch, Option.getD_none]

/-! ### The roles of a reported list -/

theorem roleOf_eq_edge_iff (li k : Nat) : roleOf li k = .edge ↔ k = 0 := by
  unfold roleOf
  split
  · simpa
  · split <;> simpa

theorem roleOf_eq_liquid_iff {li : Nat} (hli : 1 ≤ li) (k : Nat) : roleOf li k = .liquid ↔ k = li := by
  unfold roleOf
  split
  · simp only [reduceCtorEq, false_iff]
    omega
  · split <;> simpa

theorem roleOf_ne_unknown (li k : Nat) : roleOf li k ≠ .unknown := by
  unfold roleOf
  split
  · nofun
  · split <;> nofun

/-- The peaks of the list have the roles the Liquid index gives to their indices (44_classification.md R151 to R154). -/
def HasRoles (li : Nat) (P : List EchoPeak) : Prop := P.map EchoPeak.role = (List.range P.length).map (roleOf li)

theorem Reported.hasRoles {P : List EchoPeak} {li : Nat} (h : Reported P li) : HasRoles li P := by
  refine List.ext_getElem (by simp) fun k hk _ => ?_
  have hlt : k < P.length := by simpa using hk
  simpa [peakAt_of_lt P k hlt] using h.role k hlt

/-- Peaks in raw coordinates keep their roles. -/
theorem HasRoles.rawPeaks {P : List EchoPeak} {li : Nat} (h : HasRoles li P) : HasRoles li (P.map rawPeak) := by
  rw [HasRoles, List.map_map, List.length_map]
  exact h

section Roles

variable {P : List EchoPeak} {li : Nat} (h : HasRoles li P)

include h

theorem HasRoles.countP_eq (r : Role) :
    P.countP (fun q => q.role == r) = (List.range P.length).countP fun k => roleOf li k == r := by
  calc P.countP (fun q => q.role == r) = (P.map EchoPeak.role).countP (· == r) := by rw [List.countP_map]; rfl
    _ = ((List.range P.length).map (roleOf li)).countP (· == r) := by rw [h]
    _ = (List.range P.length).countP fun k => roleOf li k == r := List.countP_map

/-- A role that one index has, and no other, is the role of exactly one peak. -/
theorem HasRoles.countP_eq_one {r : Role} {j : Nat} (hj : j < P.length) (hr : ∀ k, roleOf li k = r ↔ k = j) :
    P.countP (fun q => q.role == r) = 1 := by
  have hindex : (fun k => roleOf li k == r) = (· == j) := by
    funext k
    rw [Bool.eq_iff_iff, beq_iff_eq, beq_iff_eq, hr]
  rw [h.countP_eq, hindex]
  exact List.count_eq_one_of_mem List.nodup_range (List.mem_range.mpr hj)

theorem HasRoles.countP_eq_zero {r : Role} (hr : ∀ k, roleOf li k ≠ r) : P.countP (fun q => q.role == r) = 0 := by
  rw [h.countP_eq, List.countP_eq_zero]
  exact fun k _ => by simpa using hr k

theorem HasRoles.peakAt_role {k : Nat} (hk : k < P.length) : (peakAt P k).role = roleOf li k := by
  have hrole := List.getElem_of_eq h ((List.length_map EchoPeak.role).symm ▸ hk)
  rw [List.getElem_map, List.getElem_map, List.getElem_range] at hrole
  rw [peakAt_of_lt P k hk, hrole]

theorem HasRoles.rolesLegal (hli : 1 ≤ li) (hlt : li < P.length) : RolesLegal P :=
  have hfirst : 0 < P.length := Nat.zero_lt_of_lt hlt
  ⟨(h.peakAt_role hfirst).trans (if_pos rfl), h.countP_eq_one hfirst (roleOf_eq_edge_iff li),
    h.countP_eq_one hlt (roleOf_eq_liquid_iff hli), h.countP_eq_zero (roleOf_ne_unknown li)⟩

end Roles

/-! ### The legality of a result -/

theorem rawPeaks_ascending {P : List EchoPeak} (h : Ascending P) : Ascending (P.map rawPeak) :=
  List.pairwise_map.mpr (h.imp fun hlt => Nat.add_lt_add_right hlt 40)

theorem sentinel_legal : ResultLegal sentinel :=
  ⟨by decide, by decide, List.Pairwise.nil, .inl rfl⟩

theorem deriveResult_legal (s : List Nat) {P : List EchoPeak} {li : Nat} (h : Reported P li) :
    ResultLegal (deriveResult s P li) := by
  have hpos := h.liquid_pos
  have hlt := h.liquid_lt
  have hlen : (P.map rawPeak).length = P.length := List.length_map rawPeak
  have hfront : (peakAt P 0).position < (peakAt P li).position := peakAt_position_lt h.ascending hpos hlt
  refine ⟨fun _ _ => ?_, orderBoundaries_lt _ _, rawPeaks_ascending h.ascending, .inr ⟨?_, ?_, ?_⟩⟩
  · exact Int.add_lt_add_right (Int.ofNat_lt.mpr hfront) 40
  · exact hlen ▸ hpos.trans_lt hlt
  · exact hlen ▸ h.length_le
  · exact h.hasRoles.rawPeaks.rolesLegal hpos (hlen ▸ hlt)

/-- Settles O53: a result is the sentinel, or derived from a list fit to be reported. -/
theorem everyResultIsLegal : Obligations.EveryResultIsLegal := by
  intro S len
  obtain hsentinel | ⟨P, li, hreported, hderived⟩ := calibrate_cases S len
  · rw [hsentinel]
    exact sentinel_legal
  · rw [hderived]
    exact deriveResult_legal _ hreported

end Sys2Proof.Proofs

/-! PROOFS. The error conditions and the irq output (60_exceptions.md R200 to R208): every step answers a next state, a
request that does not decode is answered with the AccessFault and nothing else, no step reports two errors, and irq
follows the causes of a change to IE and to DONE. With them the sentinel's flag NO_CONTAINER (R206) and the two orders
of a CALIBRATE and a completion (R205). -/

namespace Sys2Proof.Proofs

open Sys2Proof Sys2Proof.Machine Sys2Proof.Safety

/-! ### Every step answers -/

theorem handleEvent_next (e : Event) (s : State) : ∃ t, handleEvent e s = .next t := by
  cases he : hostEvent e with
  | true =>
    obtain ⟨t, ht, -, -⟩ := handleEvent_next_of_host he s
    exact ⟨t, ht⟩
  | false =>
    cases e with
    | request r => cases he
    | access a => cases he
    | engine => exact ⟨_, rfl⟩
    | reset => exact ⟨_, rfl⟩

/-- Settles O8: the engine's turn answers, and so does every event that is taken. -/
theorem everyStepAnswersNext : Obligations.EveryStepAnswersNext := by
  intro s
  cases hi : s.inbox with
  | nil => exact ⟨_, step_of_empty s hi⟩
  | cons e rest =>
    cases hd : hostEvent e && engineDue s with
    | true =>
      obtain ⟨he, hdue⟩ := Bool.and_eq_true_iff.mp hd
      exact ⟨_, step_of_due s ⟨hdue, e, rest, hi, he⟩⟩
    | false =>
      rw [step_of_event s e rest hi hd]
      exact handleEvent_next e _

/-! ### The AccessFault -/

/-- ADDR[1:0] are the two low bits of the header (30_encoding.md R81). -/
theorem header_addr_aligned_iff (h : Header) : h.addr.aligned = true ↔ h.extractLsb' 0 2 = 0b00#2 := by
  rw [Offset.aligned, Header.addr, BitVec.extractLsb'_extractLsb'_of_le (by decide), beq_iff_eq]

theorem decodeRequest_ne_ok {r : Request}
    (h : r.header.extractLsb' 12 2 ≠ 0b10#2 ∨ r.header.extractLsb' 0 2 ≠ 0b00#2) (i : Instr) :
    decodeRequest r ≠ .ok i := by
  intro hdec
  obtain ⟨hsize, haligned, -⟩ := (decodeRequest_eq_ok_iff r i).mp hdec
  rcases h with hne | hne
  · exact hne hsize
  · exact hne ((header_addr_aligned_iff r.header).mp haligned)

theorem hostStep_of_undecoded {r : Request} (h : ∀ i, decodeRequest r ≠ .ok i) (s : State) :
    hostStep r s = .next (accessFault r.header.write s) := by
  cases hdec : decodeRequest r with
  | ok i => exact absurd hdec (h i)
  | error e => rw [hostStep, hdec]

/-- Settles O6: such a request does not decode. -/
theorem accessFaultAnswersError : Obligations.AccessFaultAnswersError := by
  intro s r rest hi hw hillegal
  have hfault := hostStep_of_undecoded (decodeRequest_ne_ok hillegal) (takeEvent (.request r) rest s)
  rw [accessFault_eq] at hfault
  exact (step_of_hostEvent hi hw).trans hfault

/-! ### At most one error per request -/

/-- An instruction is answered OK, or its whole effect is the AccessFault. -/
theorem exec_answer {i : Instr} {s t : State} (h : exec i s = .next t) :
    (∃ o, t.response = some ⟨.ok, o⟩) ∨ ∃ w, t = accessFault w s := by
  rcases exec_cases i s t h with ⟨off, -, rfl | rfl⟩ | ⟨off, d, -, -, rfl⟩ | ⟨off, d, -, rfl⟩ | ⟨-, rfl⟩ | ⟨-, rfl⟩ |
    ⟨-, rfl⟩
  · exact .inl ⟨_, rfl⟩
  · exact .inr ⟨_, rfl⟩
  · exact .inl ⟨_, rfl⟩
  · exact .inr ⟨_, rfl⟩
  · exact .inl ⟨_, rfl⟩
  · exact .inl ⟨_, rfl⟩
  · exact .inl ⟨_, rfl⟩

theorem hostStep_answer {r : Request} {s t : State} (h : hostStep r s = .next t) :
    (∃ o, t.response = some ⟨.ok, o⟩) ∨ ∃ w, t = accessFault w s := by
  rcases hostStep_cases r s t h with ⟨i, -, hx⟩ | ⟨-, ht⟩
  · exact exec_answer hx
  · exact .inr ⟨_, ht⟩

theorem engineTurn_errors (s : State) :
    (engineTurn s).errBusy = s.errBusy ∧ (engineTurn s).errCmd = s.errCmd := by
  unfold engineTurn
  split <;> exact ⟨rfl, rfl⟩

/-- With an error response on the bus after the step, either the request raised an AccessFault or the engine went first
and the response is an old one; neither touches STATUS. -/
theorem step_errorResponse_keeps_errors {s t : State} {r : Request} {rest : List Event} {o : Option Word}
    (hi : s.inbox = .request r :: rest) (h : step s = .next t) (hresp : t.response = some ⟨.err, o⟩) :
    t.errBusy = s.errBusy ∧ t.errCmd = s.errCmd := by
  cases hd : engineDue s with
  | true =>
    rw [step_of_due s ⟨hd, _, rest, hi, rfl⟩] at h
    cases h
    exact engineTurn_errors s
  | false =>
    rw [step_of_hostEvent hi hd] at h
    rcases hostStep_answer h with ⟨o', hok⟩ | ⟨w, rfl⟩
    · rw [hok] at hresp
      cases hresp
    · exact ⟨rfl, rfl⟩

/-- The effect that sets ERR_BUSY, a refusal, is not one that sets ERR_CMD. -/
theorem step_errCmd_of_errBusy_set {s t : State} (h : step s = .next t) (hs : s.errBusy = false)
    (ht : t.errBusy = true) : t.errCmd = s.errCmd := by
  cases step_effect h with
  | refused _ _ _ _ block => exact congrArg Block.errCmd block
  | statusWritten _ _ block => exact (not_set_by_ack hs ht (congrArg Block.errBusy block)).elim
  | reset _ block =>
    have hclear : t.errBusy = false := congrArg Block.errBusy block
    simp [hclear] at ht
  | _ =>
    rename_i block
    have hkept : t.errBusy = s.errBusy := congrArg Block.errBusy block
    simp [hkept, hs] at ht

/-- Settles O27: ERR_BUSY and ERR_CMD are set by different effects, and an AccessFault sets neither. -/
theorem oneErrorPerRequest : Obligations.OneErrorPerRequest := by
  intro s t r rest hi h
  refine ⟨fun ⟨⟨hsBusy, htBusy⟩, hsCmd, htCmd⟩ => ?_, fun ⟨_, hresp⟩ => step_errorResponse_keeps_errors hi h hresp⟩
  have hkept := step_errCmd_of_errBusy_set h hsBusy htBusy
  simp [hkept, hsCmd] at htCmd

/-! ### irq -/

theorem irq_eq_true_iff (s : State) : irq s = true ↔ s.ie = true ∧ s.done = true := by
  rw [irq, Bool.and_eq_true]

theorem irq_eq_false_iff (s : State) : irq s = false ↔ s.ie = false ∨ s.done = false := by
  rw [irq, Bool.and_eq_false_iff]

/-- IE changes only by a write to CTRL or by a reset, which clears it (10_state.md R24). -/
theorem step_ie {s t : State} (h : step s = .next t) :
    t.ie = s.ie ∨ (∃ d : Word, nextInstr s = some (.wr32 0x008 d) ∧ t.ie = d.getLsbD 0) ∨
    (t.ie = false ∧ nextIsReset s) := by
  cases step_effect h with
  | ctrlWritten d instr block => exact .inr (.inl ⟨d, instr, congrArg Block.ie block⟩)
  | reset turn block => exact .inr (.inr ⟨congrArg Block.ie block, turn⟩)
  | _ =>
    rename_i block
    exact .inl (congrArg Block.ie block)

theorem step_ie_falls {s t : State} (h : step s = .next t) (hs : s.ie = true) (ht : t.ie = false) :
    nextIsReset s ∨ ∃ d : Word, d.getLsbD 0 = false ∧ nextInstr s = some (.wr32 0x008 d) := by
  rcases step_ie h with heq | ⟨d, instr, hbit⟩ | ⟨-, turn⟩
  · simp [heq, hs] at ht
  · exact .inr ⟨d, hbit.symm.trans ht, instr⟩
  · exact .inl turn

theorem step_ie_rises {s t : State} (h : step s = .next t) (hs : s.ie = false) (ht : t.ie = true) :
    ∃ d : Word, d.getLsbD 0 = true ∧ nextInstr s = some (.wr32 0x008 d) := by
  rcases step_ie h with heq | ⟨d, instr, hbit⟩ | ⟨hf, -⟩
  · simp [heq, hs] at ht
  · exact ⟨d, hbit.symm.trans ht, instr⟩
  · simp [hf] at ht

/-- Settles O30: irq falls with IE or with DONE, and rises with the one of them that was 0. -/
theorem irqRisesAndFallsOnlyAsListed : Obligations.IrqRisesAndFallsOnlyAsListed := by
  intro s t h
  obtain ⟨-, -, doneRises, doneFalls⟩ := busyAndDoneChangeOnlyAsTabulated s t h
  refine ⟨fun hs ht => ?_, fun hs ht => ?_⟩
  · obtain ⟨hie, hdone⟩ := (irq_eq_true_iff s).mp hs
    rcases (irq_eq_false_iff t).mp ht with hieFalls | hdoneFalls
    · rcases step_ie_falls h hie hieFalls with turn | written
      · exact .inl turn
      · exact .inr (.inl written)
    · rcases doneFalls hdone hdoneFalls with turn | accepted | acknowledged
      · exact .inl turn
      · exact .inr (.inr (.inr accepted))
      · exact .inr (.inr (.inl acknowledged))
  · obtain ⟨hie, hdone⟩ := (irq_eq_true_iff t).mp ht
    rcases (irq_eq_false_iff s).mp hs with hieRises | hdoneRises
    · exact .inl (step_ie_rises h hieRises hie)
    · exact .inr (doneRises hdoneRises hdone)

/-! ### The sentinel and NO_CONTAINER -/

theorem deriveResult_ne_sentinel (s : List Nat) (P : List EchoPeak) (li : Nat) : deriveResult s P li ≠ sentinel := by
  intro h
  have hcontainer := derived_noContainer s P li
  rw [h, sentinel_regs] at hcontainer
  cases hcontainer

theorem resultOfPeaks_eq_sentinel_iff (s : List Nat) (M : List EchoPeak) :
    resultOfPeaks s M = sentinel ↔ M.length < 2 := by
  refine ⟨fun h => ?_, fun h => if_pos h⟩
  by_contra hM
  rw [resultOfPeaks_of_two s (Nat.le_of_not_lt hM)] at h
  exact deriveResult_ne_sentinel _ _ _ h

theorem calibrate_eq_sentinel_iff (S : Vector Sample 224) (len : Nat) :
    calibrate S len = sentinel ↔ len < 171 ∨ (merge (detect (smooth (extractWindow S)))).length < 2 := by
  by_cases hlen : len < 171
  · exact iff_of_true (calibrate_of_short S hlen) (.inl hlen)
  · rw [calibrate_of_long S (Nat.le_of_not_lt hlen), analyse, resultOfPeaks_eq_sentinel_iff, or_iff_right hlen]

theorem calibrate_noContainer_iff (S : Vector Sample 224) (len : Nat) :
    (resultRegs (calibrate S len)).noContainer = true ↔ calibrate S len = sentinel := by
  rcases calibrate_cases S len with hsentinel | ⟨P, li, -, hderived⟩
  · rw [hsentinel, sentinel_regs]
    exact iff_of_true rfl rfl
  · rw [hderived, derived_noContainer]
    exact iff_of_false Bool.false_ne_true (deriveResult_ne_sentinel _ _ _)

/-- Settles O52: a derived result reports a container, and so is never the sentinel, which reports none. -/
theorem noContainerExactlyWhenTooFewPeaks : Obligations.NoContainerExactlyWhenTooFewPeaks :=
  fun S len => ⟨calibrate_eq_sentinel_iff S len, calibrate_noContainer_iff S len⟩

/-! ### A CALIBRATE and a completion -/

section Race

variable {s : State} {rest : List Event}

theorem decodeRequest_scriptCalibrate : decodeRequest scriptCalibrate = .ok .calibrate := rfl

theorem step_calibrate_refused (hi : s.inbox = .request scriptCalibrate :: rest) (hb : s.busy = true)
    (hp : s.patience ≠ 0) :
    step s = .next { s with
      inbox := rest, patience := s.patience - 1, errBusy := true, response := some ⟨.ok, none⟩ } := by
  obtain ⟨taken, -⟩ := stepRunsDecodedInstruction s _ rest _ hi decodeRequest_scriptCalibrate
  obtain ⟨-, refused⟩ := calibrateStartsOrIsRefused { s with inbox := rest, patience := s.patience - 1 }
  rw [taken (engineDue_eq_false hp), if_pos hb]
  exact refused hb

theorem step_calibrate_accepted (hi : s.inbox = .request scriptCalibrate :: rest) (hb : s.busy = false) :
    step s = .next { s with inbox := rest, busy := true, done := false, response := some ⟨.ok, none⟩ } := by
  obtain ⟨taken, -⟩ := stepRunsDecodedInstruction s _ rest _ hi decodeRequest_scriptCalibrate
  obtain ⟨accepted, -⟩ := calibrateStartsOrIsRefused { s with inbox := rest }
  rw [taken (engineDue_idle s hb), if_neg (Bool.eq_false_iff.mp hb)]
  exact accepted hb

/-- A CALIBRATE that comes while the run goes on is refused, and the run then completes. -/
theorem run_calibrate_then_completion (hi : s.inbox = .request scriptCalibrate :: .engine :: rest)
    (hb : s.busy = true) (hp : s.patience ≠ 0) :
    ∃ t, Host.Core.run core 2 s = .next t ∧ t.busy = false ∧ t.done = true ∧ t.errBusy = true := by
  obtain ⟨completed, -⟩ := completionWritesTheResult
    { s with inbox := .engine :: rest, patience := s.patience - 1, errBusy := true, response := some ⟨.ok, none⟩ }
    (.inr (.inl ⟨rest, rfl⟩))
  exact ⟨_, (run_succ 1 s _ (step_calibrate_refused hi hb hp)).trans (run_succ 0 _ _ (completed hb)), rfl, rfl, rfl⟩

/-- A CALIBRATE that comes when the run has completed starts the next one. -/
theorem run_completion_then_calibrate (turn : nextIsEngine s)
    (hafter : afterEngine s.inbox = .request scriptCalibrate :: rest) (hb : s.busy = true) :
    ∃ t, Host.Core.run core 2 s = .next t ∧ t.busy = true ∧ t.done = false ∧ t.errBusy = s.errBusy := by
  obtain ⟨completed, -⟩ := completionWritesTheResult s turn
  exact ⟨_, (run_succ 1 s _ (completed hb)).trans (run_succ 0 _ _ (step_calibrate_accepted hafter rfl)), rfl, rfl, rfl⟩

end Race

/-- Settles O59: the schedule decides which of the two comes first, unless the completion is due. -/
theorem bothOrdersOfRequestAndCompletion : Obligations.BothOrdersOfRequestAndCompletion := by
  intro s rest hb herr
  refine ⟨fun hp => run_calibrate_then_completion rfl hb hp, ?_, fun hp => ?_⟩
  · have scheduled : nextIsEngine { s with inbox := .engine :: .request scriptCalibrate :: rest } :=
      .inr (.inl ⟨_, rfl⟩)
    exact herr ▸ run_completion_then_calibrate scheduled rfl hb
  · have due : nextIsEngine { s with inbox := .request scriptCalibrate :: rest } :=
      .inr (.inr ⟨engineDue_eq_true hb hp, _, _, rfl, rfl⟩)
    exact herr ▸ run_completion_then_calibrate due rfl hb

end Sys2Proof.Proofs

/-! PROOFS. Reset and the hazards around it (70_reset_and_hazards.md R220 to R230): what a reset leaves, why no completion
follows it, what a read of STATUS answers around a completion, and that every run completes. After a reset the block stays
idle, so each step takes exactly the head of the inbox, and the events presented can be counted off one by one. -/

namespace Sys2Proof.Proofs

open Sys2Proof Sys2Proof.Machine Sys2Proof.Safety

/-! ### The state a reset leaves -/

theorem step_reset {s : State} {rest : List Event} (hi : s.inbox = .reset :: rest) :
    step s = .next (platformReset { s with inbox := rest }) := by
  rw [step_of_event s .reset rest hi rfl, takeEvent_idle _ _ _ (.inr rfl)]
  rfl

theorem resetResults_peaks (k : Fin 32) : ResultRegs.reset.peaks[k] = PeakEntry.zero := Vector.getElem_replicate k.isLt

theorem resetResults_flagsWord : flagsWord ResultRegs.reset = 0x2#32 := by decide

/-- Settles O31: the reset is taken whatever the state, and writes each field. -/
theorem resetGivesTabulatedValues : Obligations.ResetGivesTabulatedValues := fun _ _ hi =>
  ⟨_, step_reset hi, rfl, rfl, rfl, rfl, rfl, rfl, rfl, rfl, rfl, rfl, rfl, rfl, rfl, rfl, resetResults_flagsWord, rfl,
    resetResults_peaks, rfl, rfl⟩

/-- The state after any reset meets the invariant, whatever was drawn and is still to come. -/
theorem afterReset_inv (n draw : Nat) (inbox : List Event) : Inv (State.afterReset n draw inbox) := by
  obtain ⟨hno, hcont⟩ := reset_resultsLegal
  exact { busy_not_done := fun _ => rfl, len_legal := Nat.zero_le 224, no_container := hno, container := hcont }

/-- Settles O55: the first reset is one of them. -/
theorem resetMeetsInv : Obligations.ResetMeetsInv := afterReset_inv 0 0 []

/-! ### After a reset -/

/-- While BUSY = 0 a step takes the head of the inbox, whatever it is. -/
theorem step_inbox_of_idle {s t : State} (hb : s.busy = false) (h : step s = .next t) : t.inbox = s.inbox.tail := by
  rcases step_cases s t h with ⟨e, rest, i, hi, -, hx⟩ | ⟨e, rest, w, hi, -, rfl⟩ | ⟨e, rest, hi, -, rfl⟩ |
    ⟨turn, -, rfl⟩ | ⟨-, -, rfl⟩
  · rw [exec_inbox i _ t hx, hi]
    rfl
  · rw [hi]
    rfl
  · rw [hi]
    rfl
  · rw [engineTurn_inbox]
    rcases turn with hempty | ⟨rest, hengine⟩ | ⟨hdue, -⟩
    · simp [hempty, afterEngine]
    · simp [hengine, afterEngine]
    · simp [engineDue_idle s hb] at hdue
  · rfl

/-- What a reset leaves of a run: none in progress, none completed, and no result (70_reset_and_hazards.md R220, R221). -/
structure NoRun (s : State) : Prop where
  idle     : s.busy = false
  not_done : s.done = false
  results  : s.results = resultRegs sentinel

/-- An event that neither starts a run nor resets the block. -/
def StartsNothing (e : Event) : Prop := e ≠ .reset ∧ eventInstr e ≠ some .calibrate

theorem platformReset_noRun (s : State) : NoRun (platformReset s) := ⟨rfl, rfl, sentinel_regs.symm⟩

/-- BUSY rises with a CALIBRATE alone, and without BUSY no completion sets DONE or writes a result. -/
theorem step_keeps_noRun {s t : State} (hs : NoRun s) (hhead : ∀ e ∈ s.inbox.head?, StartsNothing e)
    (h : step s = .next t) : NoRun t := by
  have notBusy : s.busy ≠ true := Bool.eq_false_iff.mp hs.idle
  have notReset : ¬ nextIsReset s := fun ⟨rest, hi⟩ => (hhead .reset (by simp [hi])).1 rfl
  have notCalibrate : nextInstr s ≠ some .calibrate := by
    unfold nextInstr
    cases hi : s.inbox with
    | nil => exact nofun
    | cons e rest =>
      rw [engineDue_idle s hs.idle]
      exact (hhead e (by simp [hi])).2
  refine ⟨?_, ?_, ?_⟩
  · rcases step_busy h with heq | ⟨-, instr⟩ | ⟨hfalls, -⟩
    · exact heq.trans hs.idle
    · exact absurd instr notCalibrate
    · exact hfalls
  · rcases step_done h with heq | ⟨-, busy, -⟩ | ⟨hfalls, -⟩ | ⟨d, -, hack⟩
    · exact heq.trans hs.not_done
    · exact absurd busy notBusy
    · exact hfalls
    · rw [hack, hs.not_done, Bool.false_and]
  · rcases step_results h with heq | ⟨-, busy, -⟩ | ⟨hcleared, -⟩ | ⟨-, reset⟩
    · exact heq.trans hs.results
    · exact absurd busy notBusy
    · exact hcleared
    · exact absurd reset notReset

/-- For `k` steps no run starts, if none of the first `k` events presented starts one. -/
theorem run_keeps_noRun (k : Nat) {s : State} (hs : NoRun s) (hes : ∀ e ∈ s.inbox.take k, StartsNothing e) :
    ∃ t, Host.Core.run core k s = .next t ∧ NoRun t := by
  induction k generalizing s with
  | zero => exact ⟨s, run_zero s, hs⟩
  | succ k ih =>
    have hhead : ∀ e ∈ s.inbox.head?, StartsNothing e := fun e he =>
      hes e (List.mem_of_mem_head? (by rwa [List.head?_take, if_neg (Nat.succ_ne_zero k)]))
    obtain ⟨u, hu⟩ := everyStepAnswersNext s
    have htail : ∀ e ∈ u.inbox.take k, StartsNothing e := fun e he =>
      hes e (List.mem_of_mem_tail (by
        rwa [List.tail_take_eq_take_tail, Nat.add_sub_cancel, ← step_inbox_of_idle hs.idle hu]))
    obtain ⟨t, ht, hrun⟩ := ih (step_keeps_noRun hs hhead hu) htail
    exact ⟨t, (run_succ k s u hu).trans ht, hrun⟩

/-- Settles O32: the reset leaves no run, and the events after it start none. -/
theorem resetAbortsTheRun : Obligations.ResetAbortsTheRun := by
  intro s es rest _ hi hes k hk
  have taken : ∀ e ∈ (es ++ rest).take k, e ∈ es := by
    intro e he
    rcases hk with hle | rfl
    · rw [List.take_append_of_le_length hle] at he
      exact List.mem_of_mem_take he
    · simpa using List.mem_of_mem_take he
  obtain ⟨t, ht, hrun⟩ := run_keeps_noRun k (platformReset_noRun { s with inbox := es ++ rest })
    fun e he => hes e (taken e he)
  exact ⟨t, (run_succ k s _ (step_reset hi)).trans ht, hrun.idle, hrun.not_done, hrun.results⟩

/-! ### Reads of STATUS -/

theorem decodeRequest_scriptWaitRead : decodeRequest scriptWaitRead = .ok (.rd32 0x00C) := rfl

/-- BUSY and DONE are the two low bits of STATUS (10_state.md R25). -/
theorem statusWord_low (s : State) : statusWord s &&& 0x3#32 = bitWord 0 s.busy ||| bitWord 1 s.done := by
  have bits : ∀ b d e c : Bool, (bitWord 0 b ||| bitWord 1 d ||| bitWord 2 e ||| bitWord 3 c) &&& 0x3#32 =
      bitWord 0 b ||| bitWord 1 d := by decide
  exact bits s.busy s.done s.errBusy s.errCmd

theorem statusWord_low_of_running {s : State} (hb : s.busy = true) (hd : s.done = false) :
    statusWord s &&& 0x3#32 = 0x1#32 := by
  rw [statusWord_low, hb, hd]
  rfl

theorem statusWord_low_of_completed {s : State} (hb : s.busy = false) (hd : s.done = true) :
    statusWord s &&& 0x3#32 = 0x2#32 := by
  rw [statusWord_low, hb, hd]
  rfl

/-- A read of STATUS that is taken answers STATUS as it stands. -/
theorem step_statusRead {s : State} {rest : List Event} (hi : s.inbox = .request scriptWaitRead :: rest)
    (hw : engineDue s = false) :
    ∃ t, step s = .next t ∧ t.response = some ⟨.ok, some (statusWord s)⟩ := by
  obtain ⟨taken, -⟩ := stepRunsDecodedInstruction s _ rest _ hi decodeRequest_scriptWaitRead
  exact ⟨_, (taken hw).trans (rd32_at (r := .status) (by decide) _), rfl⟩

/-- While BUSY = 0 and DONE = 1 a read of STATUS says so. -/
theorem step_statusRead_of_completed {s : State} {rest : List Event} (hi : s.inbox = .request scriptWaitRead :: rest)
    (hb : s.busy = false) (hd : s.done = true) :
    ∃ t w, step s = .next t ∧ t.response = some ⟨.ok, some w⟩ ∧ w &&& 0x3#32 = 0x2#32 := by
  obtain ⟨t, ht, hresp⟩ := step_statusRead hi (engineDue_idle s hb)
  exact ⟨t, _, ht, hresp, statusWord_low_of_completed hb hd⟩

/-- A read of STATUS after the completion, however the engine's turn comes about. -/
theorem run_completion_then_statusRead {s : State} {rest : List Event} (hb : s.busy = true) (turn : nextIsEngine s)
    (hafter : afterEngine s.inbox = .request scriptWaitRead :: rest) :
    ∃ t w, Host.Core.run core 2 s = .next t ∧ t.response = some ⟨.ok, some w⟩ ∧ w &&& 0x3#32 = 0x2#32 := by
  obtain ⟨u, hu, completed, hinbox⟩ := step_completes_of_engine hb turn
  obtain ⟨t, w, ht, answer⟩ := step_statusRead_of_completed (hinbox.trans hafter) completed.idle completed.done
  exact ⟨t, w, (run_succ 1 s u hu).trans (run_succ 0 u t ht), answer⟩

/-- While BUSY = 0 a CALIBRATE starts a run, which the engine holds off for the events that were drawn. -/
theorem step_calibrate_starts {s : State} {rest : List Event} (hi : s.inbox = .request scriptCalibrate :: rest)
    (hb : s.busy = false) :
    ∃ u, step s = .next u ∧ u.busy = true ∧ u.done = false ∧ u.inbox = rest ∧ u.patience = s.patience :=
  ⟨_, step_calibrate_accepted hi hb, rfl, rfl, rfl, rfl⟩

/-- Settles O60: the CALIBRATE is accepted, and the read then comes before the completion or after it. -/
theorem statusReadAfterCalibrate : Obligations.StatusReadAfterCalibrate := by
  intro s rest hb
  have started (es : List Event) := step_calibrate_starts (s := { s with inbox := .request scriptCalibrate :: es }) rfl hb
  refine ⟨fun hp => ?_, ?_, fun hp => ?_⟩
  · obtain ⟨u, hu, busy, notDone, hinbox, hpat⟩ := started (.request scriptWaitRead :: rest)
    obtain ⟨t, ht, hresp⟩ := step_statusRead hinbox (engineDue_eq_false (hpat ▸ hp))
    exact ⟨t, _, (run_succ 1 _ u hu).trans (run_succ 0 u t ht), hresp, statusWord_low_of_running busy notDone⟩
  · obtain ⟨u, hu, busy, -, hinbox, -⟩ := started (.engine :: .request scriptWaitRead :: rest)
    obtain ⟨t, w, ht, answer⟩ := run_completion_then_statusRead busy (.inr (.inl ⟨_, hinbox⟩)) (congrArg afterEngine hinbox)
    exact ⟨t, w, (run_succ 2 _ u hu).trans ht, answer⟩
  · obtain ⟨u, hu, busy, -, hinbox, hpat⟩ := started (.request scriptWaitRead :: rest)
    have due : engineDue u = true := engineDue_eq_true busy (hpat.trans hp)
    obtain ⟨t, w, ht, answer⟩ :=
      run_completion_then_statusRead busy (.inr (.inr ⟨due, _, _, hinbox, rfl⟩)) (congrArg afterEngine hinbox)
    exact ⟨t, w, (run_succ 2 _ u hu).trans ht, answer⟩

/-! ### Every run completes -/

/-- A host that polls STATUS as `wait` does reads the end of the run. -/
theorem wait_ends {s : State} (hb : s.busy = true) :
    ∃ n t w, n ≤ s.patience + 2 ∧ drive (fun _ _ => [.request scriptWaitRead]) n s = .next t ∧
      t.response = some ⟨.ok, some w⟩ ∧ scriptWaitTest w = true := by
  have noReset : ∀ (k : Nat) (u : State), ∀ e ∈ [Event.request scriptWaitRead], e ≠ .reset := by simp
  obtain ⟨n, u, hn, hu, completed, -⟩ := drive_completes noReset (m := 0) (s := s) rfl hb
  obtain ⟨t, w, ht, hresp, hlow⟩ := step_statusRead_of_completed (s := { u with inbox := [.request scriptWaitRead] })
    rfl completed.idle completed.done
  exact ⟨n + 2, t, w, by omega, (drive_succ hu).trans ht, hresp, beq_iff_eq.mpr hlow⟩

/-- A run completes while a finite inbox is taken, or in the step after. -/
theorem run_completes_within_inbox {es : List Event} {s : State} (hb : s.busy = true) (hi : s.inbox = es)
    (hreset : ∀ e ∈ es, e ≠ .reset) :
    ∃ n t, n ≤ es.length + 1 ∧ Host.Core.run core n s = .next t ∧ RunCompleted s t := by
  induction es generalizing s with
  | nil =>
    obtain ⟨t, ht, completed, -⟩ := step_completes_of_engine hb (.inl hi)
    exact ⟨1, t, le_refl 1, run_succ 0 s t ht, completed⟩
  | cons e es ih =>
    rcases engine_or_hostEvent_next hb (hi ▸ hreset) with turn | ⟨e', rest, hi', he, hp⟩
    · obtain ⟨t, ht, completed, -⟩ := step_completes_of_engine hb turn
      exact ⟨1, t, Nat.le_add_left 1 _, run_succ 0 s t ht, completed⟩
    · obtain ⟨rfl, rfl⟩ : e = e' ∧ es = rest := List.cons.inj (hi.symm.trans hi')
      obtain ⟨u, hu, goesOn, hinbox, -⟩ := step_goesOn_of_hostEvent hb hi he hp
      obtain ⟨n, t, hn, ht, completed⟩ :=
        ih goesOn.busy hinbox fun x hx => hreset x (List.mem_cons_of_mem e hx)
      exact ⟨n + 1, t, Nat.succ_le_succ hn, (run_succ n s u hu).trans ht, goesOn.completed completed⟩

/-- Settles O58: `drive_completes` bounds the steps under every environment, `wait_ends` reads the flags that the
completion leaves, and `run_completes_within_inbox` counts off a finite inbox. -/
theorem everyRunCompletes : Obligations.EveryRunCompletes := by
  refine ⟨fun s env hb hreset => ?_, fun s hb => wait_ends hb, fun s hb hreset => ?_⟩
  · obtain ⟨n, t, hn, ht, completed, -⟩ := drive_completes hreset (m := 0) (s := s) rfl hb
    exact ⟨n + 1, t, by omega, ht, completed.idle, completed.done⟩
  · obtain ⟨n, t, hn, ht, completed⟩ := run_completes_within_inbox hb rfl hreset
    exact ⟨n, t, hn, ht, completed.idle, completed.done⟩

end Sys2Proof.Proofs
